-- ==== Sys2Proof/Word.lean ====
section
/-! DEFINITION. The machine's words (00_scope.md R7) and the closed sets the decoder's descriptors are made of: the
13 addressing forms (30_encoding.md R54) and the 57 mnemonics (30_encoding.md R60). -/

namespace Sys2Proof

/-- A register, a memory cell, an opcode: 8 bits (R7). -/
abbrev Byte := BitVec 8

/-- PC and every effective address: 16 bits (R7). -/
abbrev Word := BitVec 16

/-- The 13 addressing forms, by the spec's own names (R54). -/
inductive Mode where
  | imp | acc | imm | zp | zpx | zpy | abs | absx | absy | ind | izx | izy | rel
  deriving DecidableEq, Repr

/-- The forms that resolve to an effective address, each with its operand bytes (R54, R58). -/
inductive MemForm where
  | zp (b : Byte)
  | zpx (b : Byte)
  | zpy (b : Byte)
  | abs (w : Word)
  | absx (w : Word)
  | absy (w : Word)
  | ind (w : Word)
  | izx (b : Byte)
  | izy (b : Byte)
  deriving DecidableEq, Repr

/-- An addressing form together with its operand bytes (R54, R58). -/
inductive Form where
  | imp
  | acc
  | imm (b : Byte)
  | rel (d : Byte)
  | mem (m : MemForm)
  deriving DecidableEq, Repr

/-- The 57 mnemonics of R60, and the table's "(illegal)". -/
inductive Mnemonic where
  | adc | and | asl | bcc | bcs | beq | bit | bmi | bne | bpl | brk | bvc | bvs | clc | cld | cli | clv
  | cmp | cpx | cpy | dec | dex | dey | eor | hlt | inc | inx | iny | jmp | jsr | lda | ldx | ldy | lsr
  | nop | ora | pha | php | pla | plp | rol | ror | rti | rts | sbc | sec | sed | sei | sta | stx | sty
  | tax | tay | tsx | txa | txs | tya | illegal
  deriving DecidableEq, Repr

end Sys2Proof
end

