-- ==== Sys2Proof/Config.lean ====
section
/-! DEFINITION. What a launch of the machine fixes (00_scope.md R8, R9) and the values the spec leaves free. -/

namespace Sys2Proof

/-- The Boolean parameters of R9. A launch chooses them and no instruction changes them; they stand in State as
constant data because the meaning of an instruction takes no argument but the state. DESIGN CHOICE, log 1: safe. -/
structure Params where
  /-- P_ADC_CARRY_IN: ADC adds C into the sum (decision D8). -/
  adcCarryIn : Bool
  /-- P_SBC_BORROW_IN: SBC subtracts 1 - C as well (D9). -/
  sbcBorrowIn : Bool
  /-- P_CMP_N_FROM_BIT7: compare takes N from bit 7 of the 8-bit difference (D10). -/
  cmpNFromBit7 : Bool
  /-- P_ADDR0_SELECTS_ACC: a memory-mode shift at address 0x0000 acts on A (D11). -/
  addr0SelectsAcc : Bool
  /-- P_IY_SAME_BYTE: (zp),Y reads both pointer bytes from one cell (D12). -/
  iySameByte : Bool
  /-- P_ZP_INDEX_WRAP: zp,X and zp,Y wrap within page zero (D13). -/
  zpIndexWrap : Bool
  /-- P_ZP_PTR_WRAP: a zero-page pointer's high byte wraps within page zero (D14). -/
  zpPtrWrap : Bool
  /-- P_VECTORS_WRITABLE: the three default vector cells accept writes (D25). -/
  vectorsWritable : Bool
  deriving DecidableEq, Repr

namespace Config

/-- The defaults of R9. -/
def defaults : Params where
  adcCarryIn := false
  sbcBorrowIn := false
  cmpNFromBit7 := false
  addr0SelectsAcc := false
  iySameByte := true
  zpIndexWrap := false
  zpPtrWrap := false
  vectorsWritable := true

/-- STACK_BASE (R8). -/
def stackBase : Word := 0x0100#16
/-- PERIPH_BASE (R8). -/
def periphBase : Word := 0xF700#16
/-- ROM_BASE (R8). -/
def romBase : Word := 0xFD00#16
/-- NMI_VECTOR (R8); nothing in the block reads it (60_exceptions.md R135). -/
def nmiVector : Word := 0xFFFA#16
/-- RESET_VECTOR (R8). -/
def resetVector : Word := 0xFFFC#16
/-- IRQ_VECTOR (R8), read by BRK. -/
def irqVector : Word := 0xFFFE#16

/-- DEV_READ (R9, 20_memory.md R38): what the `n`-th draw answers to a read of address `a` served by handler `h`.
A free value: it has no body, so nothing can be proved of it. DESIGN CHOICE of the form, log 5. -/
opaque devRead (n h : Nat) (a : Word) : Byte

/-- BUS between a reset and a halt (10_state.md R32): the value of the `n`-th draw. A free value, log 4. -/
opaque busValue (n : Nat) : Byte

/-- Which of the two trailing instructions the `n`-th assembly appends (30_encoding.md R66, 93_implementation_defined.md U20: any
value of the two): true for HLT, false for RTS. A free value, log 23. -/
opaque trailingIsHalt (n : Nat) : Bool

end Config

end Sys2Proof
end

