-- ==== Sys2Proof/Syntax.lean ====
section
/-! DEFINITION. The instructions: one constructor for each of the 152 rows of the opcode map that have semantics
(30_encoding.md R60), holding the row's operand bytes (R58), and one constructor for the 104 illegal rows (R61),
holding the opcode byte. A 16-bit operand is the word of the two operand bytes, low byte first. -/

namespace Sys2Proof

/-- One decoded instruction: the opcode row and its operand. -/
inductive Instr where
  -- LDA: R69
  | ldaImm (b : Byte)
  | ldaZp (b : Byte)
  | ldaZpx (b : Byte)
  | ldaAbs (w : Word)
  | ldaAbsx (w : Word)
  | ldaAbsy (w : Word)
  | ldaIzx (b : Byte)
  | ldaIzy (b : Byte)
  -- LDX: R70
  | ldxImm (b : Byte)
  | ldxZp (b : Byte)
  | ldxZpy (b : Byte)
  | ldxAbs (w : Word)
  | ldxAbsy (w : Word)
  -- LDY: R71
  | ldyImm (b : Byte)
  | ldyZp (b : Byte)
  | ldyZpx (b : Byte)
  | ldyAbs (w : Word)
  | ldyAbsx (w : Word)
  -- STA: R72
  | staZp (b : Byte)
  | staZpx (b : Byte)
  | staAbs (w : Word)
  | staAbsx (w : Word)
  | staAbsy (w : Word)
  | staIzx (b : Byte)
  | staIzy (b : Byte)
  -- STX: R73
  | stxZp (b : Byte)
  | stxZpy (b : Byte)
  | stxAbs (w : Word)
  -- STY: R74
  | styZp (b : Byte)
  | styZpx (b : Byte)
  | styAbs (w : Word)
  -- TAX: R75
  | tax
  -- TAY: R76
  | tay
  -- TXA: R77
  | txa
  -- TYA: R78
  | tya
  -- TSX: R79
  | tsx
  -- TXS: R80
  | txs
  -- PHA: R81
  | pha
  -- PLA: R82
  | pla
  -- PHP: R83
  | php
  -- PLP: R84
  | plp
  -- ORA: R87
  | oraImm (b : Byte)
  | oraZp (b : Byte)
  | oraZpx (b : Byte)
  | oraAbs (w : Word)
  | oraAbsx (w : Word)
  | oraAbsy (w : Word)
  | oraIzx (b : Byte)
  | oraIzy (b : Byte)
  -- AND: R88
  | andImm (b : Byte)
  | andZp (b : Byte)
  | andZpx (b : Byte)
  | andAbs (w : Word)
  | andAbsx (w : Word)
  | andAbsy (w : Word)
  | andIzx (b : Byte)
  | andIzy (b : Byte)
  -- EOR: R89
  | eorImm (b : Byte)
  | eorZp (b : Byte)
  | eorZpx (b : Byte)
  | eorAbs (w : Word)
  | eorAbsx (w : Word)
  | eorAbsy (w : Word)
  | eorIzx (b : Byte)
  | eorIzy (b : Byte)
  -- ADC: R90
  | adcImm (b : Byte)
  | adcZp (b : Byte)
  | adcZpx (b : Byte)
  | adcAbs (w : Word)
  | adcAbsx (w : Word)
  | adcAbsy (w : Word)
  | adcIzx (b : Byte)
  | adcIzy (b : Byte)
  -- SBC: R91
  | sbcImm (b : Byte)
  | sbcZp (b : Byte)
  | sbcZpx (b : Byte)
  | sbcAbs (w : Word)
  | sbcAbsx (w : Word)
  | sbcAbsy (w : Word)
  | sbcIzx (b : Byte)
  | sbcIzy (b : Byte)
  -- CMP: R92
  | cmpImm (b : Byte)
  | cmpZp (b : Byte)
  | cmpZpx (b : Byte)
  | cmpAbs (w : Word)
  | cmpAbsx (w : Word)
  | cmpAbsy (w : Word)
  | cmpIzx (b : Byte)
  | cmpIzy (b : Byte)
  -- CPX: R93
  | cpxImm (b : Byte)
  | cpxZp (b : Byte)
  | cpxAbs (w : Word)
  -- CPY: R94
  | cpyImm (b : Byte)
  | cpyZp (b : Byte)
  | cpyAbs (w : Word)
  -- BIT: R95
  | bitZp (b : Byte)
  | bitAbs (w : Word)
  -- INC: R97
  | incZp (b : Byte)
  | incZpx (b : Byte)
  | incAbs (w : Word)
  | incAbsx (w : Word)
  -- DEC: R98
  | decZp (b : Byte)
  | decZpx (b : Byte)
  | decAbs (w : Word)
  | decAbsx (w : Word)
  -- INX: R99
  | inx
  -- DEX: R100
  | dex
  -- INY: R101
  | iny
  -- DEY: R102
  | dey
  -- ASL: R103
  | aslAcc
  | aslZp (b : Byte)
  | aslZpx (b : Byte)
  | aslAbs (w : Word)
  | aslAbsx (w : Word)
  -- LSR: R104
  | lsrAcc
  | lsrZp (b : Byte)
  | lsrZpx (b : Byte)
  | lsrAbs (w : Word)
  | lsrAbsx (w : Word)
  -- ROL: R105
  | rolAcc
  | rolZp (b : Byte)
  | rolZpx (b : Byte)
  | rolAbs (w : Word)
  | rolAbsx (w : Word)
  -- ROR: R106
  | rorAcc
  | rorZp (b : Byte)
  | rorZpx (b : Byte)
  | rorAbs (w : Word)
  | rorAbsx (w : Word)
  -- BPL: R108
  | bpl (d : Byte)
  -- BMI: R109
  | bmi (d : Byte)
  -- BVC: R110
  | bvc (d : Byte)
  -- BVS: R111
  | bvs (d : Byte)
  -- BCC: R112
  | bcc (d : Byte)
  -- BCS: R113
  | bcs (d : Byte)
  -- BNE: R114
  | bne (d : Byte)
  -- BEQ: R115
  | beq (d : Byte)
  -- JMP: R116
  | jmpAbs (w : Word)
  | jmpInd (w : Word)
  -- JSR: R117
  | jsrAbs (w : Word)
  -- RTS: R118
  | rts
  -- BRK: R119
  | brk
  -- RTI: R120
  | rti
  -- CLC: R121
  | clc
  -- SEC: R122
  | sec
  -- CLI: R123
  | cli
  -- SEI: R124
  | sei
  -- CLV: R125
  | clv
  -- CLD: R126
  | cld
  -- SED: R127
  | sed
  -- NOP: R128
  | nop
  -- HLT: R129
  | hlt
  -- the 104 rows "(illegal)": R61
  | illegal (op : Byte)
  deriving DecidableEq, Repr

end Sys2Proof
end

