-- ==== Sys2Proof/Decode.lean ====
section
/-! DEFINITION. The decoder (30_encoding.md R53, R58-R60), written row by row from the opcode map by nibbles; the
descriptor of an instruction (R55); and the encoder, written from the map by mnemonics. Also the part of the
assembler's contract that is about bytes (R66, R67) and the byte-order helpers everything shares (R10, R46). -/

namespace Sys2Proof

/-! ## Bytes and words (R10) -/

/-- `lo(w) = w[7:0]`. -/
def loByte (w : Word) : Byte := w.extractLsb' 0 8

/-- `hi(w) = w[15:8]`. -/
def hiByte (w : Word) : Byte := w.extractLsb' 8 8

/-- `hi : lo`, the 16-bit value hi * 256 + lo. -/
def wordOf (hi lo : Byte) : Word := hi ++ lo

/-- `zext_16`. -/
def zext16 (b : Byte) : Word := b.setWidth 16

/-- `sext_16`: bit 7 is copied into bits 15 to 8. -/
def sext16 (b : Byte) : Word := b.signExtend 16

/-! ## The opcode map, one definition for each row of R60's table (high nibble), matched on the low nibble -/

/-- Row 0x of R60. `b1` and `b2` are the bytes after the opcode; a row takes the ones it has. -/
def decodeRow0 (op : Byte) (b1 b2 : Byte) : Instr :=
  match op.toNat % 16 with
  | 0x0 => .brk
  | 0x1 => .oraIzx b1
  | 0x2 => .hlt
  | 0x5 => .oraZp b1
  | 0x6 => .aslZp b1
  | 0x8 => .php
  | 0x9 => .oraImm b1
  | 0xA => .aslAcc
  | 0xD => .oraAbs (wordOf b2 b1)
  | 0xE => .aslAbs (wordOf b2 b1)
  | _ => .illegal op

/-- Row 1x of R60. `b1` and `b2` are the bytes after the opcode; a row takes the ones it has. -/
def decodeRow1 (op : Byte) (b1 b2 : Byte) : Instr :=
  match op.toNat % 16 with
  | 0x0 => .bpl b1
  | 0x1 => .oraIzy b1
  | 0x5 => .oraZpx b1
  | 0x6 => .aslZpx b1
  | 0x8 => .clc
  | 0x9 => .oraAbsy (wordOf b2 b1)
  | 0xD => .oraAbsx (wordOf b2 b1)
  | 0xE => .aslAbsx (wordOf b2 b1)
  | _ => .illegal op

/-- Row 2x of R60. `b1` and `b2` are the bytes after the opcode; a row takes the ones it has. -/
def decodeRow2 (op : Byte) (b1 b2 : Byte) : Instr :=
  match op.toNat % 16 with
  | 0x0 => .jsrAbs (wordOf b2 b1)
  | 0x1 => .andIzx b1
  | 0x4 => .bitZp b1
  | 0x5 => .andZp b1
  | 0x6 => .rolZp b1
  | 0x8 => .plp
  | 0x9 => .andImm b1
  | 0xA => .rolAcc
  | 0xC => .bitAbs (wordOf b2 b1)
  | 0xD => .andAbs (wordOf b2 b1)
  | 0xE => .rolAbs (wordOf b2 b1)
  | _ => .illegal op

/-- Row 3x of R60. `b1` and `b2` are the bytes after the opcode; a row takes the ones it has. -/
def decodeRow3 (op : Byte) (b1 b2 : Byte) : Instr :=
  match op.toNat % 16 with
  | 0x0 => .bmi b1
  | 0x1 => .andIzy b1
  | 0x5 => .andZpx b1
  | 0x6 => .rolZpx b1
  | 0x8 => .sec
  | 0x9 => .andAbsy (wordOf b2 b1)
  | 0xD => .andAbsx (wordOf b2 b1)
  | 0xE => .rolAbsx (wordOf b2 b1)
  | _ => .illegal op

/-- Row 4x of R60. `b1` and `b2` are the bytes after the opcode; a row takes the ones it has. -/
def decodeRow4 (op : Byte) (b1 b2 : Byte) : Instr :=
  match op.toNat % 16 with
  | 0x0 => .rti
  | 0x1 => .eorIzx b1
  | 0x5 => .eorZp b1
  | 0x6 => .lsrZp b1
  | 0x8 => .pha
  | 0x9 => .eorImm b1
  | 0xA => .lsrAcc
  | 0xC => .jmpAbs (wordOf b2 b1)
  | 0xD => .eorAbs (wordOf b2 b1)
  | 0xE => .lsrAbs (wordOf b2 b1)
  | _ => .illegal op

/-- Row 5x of R60. `b1` and `b2` are the bytes after the opcode; a row takes the ones it has. -/
def decodeRow5 (op : Byte) (b1 b2 : Byte) : Instr :=
  match op.toNat % 16 with
  | 0x0 => .bvc b1
  | 0x1 => .eorIzy b1
  | 0x5 => .eorZpx b1
  | 0x6 => .lsrZpx b1
  | 0x8 => .cli
  | 0x9 => .eorAbsy (wordOf b2 b1)
  | 0xD => .eorAbsx (wordOf b2 b1)
  | 0xE => .lsrAbsx (wordOf b2 b1)
  | _ => .illegal op

/-- Row 6x of R60. `b1` and `b2` are the bytes after the opcode; a row takes the ones it has. -/
def decodeRow6 (op : Byte) (b1 b2 : Byte) : Instr :=
  match op.toNat % 16 with
  | 0x0 => .rts
  | 0x1 => .adcIzx b1
  | 0x5 => .adcZp b1
  | 0x6 => .rorZp b1
  | 0x8 => .pla
  | 0x9 => .adcImm b1
  | 0xA => .rorAcc
  | 0xC => .jmpInd (wordOf b2 b1)
  | 0xD => .adcAbs (wordOf b2 b1)
  | 0xE => .rorAbs (wordOf b2 b1)
  | _ => .illegal op

/-- Row 7x of R60. `b1` and `b2` are the bytes after the opcode; a row takes the ones it has. -/
def decodeRow7 (op : Byte) (b1 b2 : Byte) : Instr :=
  match op.toNat % 16 with
  | 0x0 => .bvs b1
  | 0x1 => .adcIzy b1
  | 0x5 => .adcZpx b1
  | 0x6 => .rorZpx b1
  | 0x8 => .sei
  | 0x9 => .adcAbsy (wordOf b2 b1)
  | 0xD => .adcAbsx (wordOf b2 b1)
  | 0xE => .rorAbsx (wordOf b2 b1)
  | _ => .illegal op

/-- Row 8x of R60. `b1` and `b2` are the bytes after the opcode; a row takes the ones it has. -/
def decodeRow8 (op : Byte) (b1 b2 : Byte) : Instr :=
  match op.toNat % 16 with
  | 0x1 => .staIzx b1
  | 0x4 => .styZp b1
  | 0x5 => .staZp b1
  | 0x6 => .stxZp b1
  | 0x8 => .dey
  | 0xA => .txa
  | 0xC => .styAbs (wordOf b2 b1)
  | 0xD => .staAbs (wordOf b2 b1)
  | 0xE => .stxAbs (wordOf b2 b1)
  | _ => .illegal op

/-- Row 9x of R60. `b1` and `b2` are the bytes after the opcode; a row takes the ones it has. -/
def decodeRow9 (op : Byte) (b1 b2 : Byte) : Instr :=
  match op.toNat % 16 with
  | 0x0 => .bcc b1
  | 0x1 => .staIzy b1
  | 0x4 => .styZpx b1
  | 0x5 => .staZpx b1
  | 0x6 => .stxZpy b1
  | 0x8 => .tya
  | 0x9 => .staAbsy (wordOf b2 b1)
  | 0xA => .txs
  | 0xD => .staAbsx (wordOf b2 b1)
  | _ => .illegal op

/-- Row Ax of R60. `b1` and `b2` are the bytes after the opcode; a row takes the ones it has. -/
def decodeRowA (op : Byte) (b1 b2 : Byte) : Instr :=
  match op.toNat % 16 with
  | 0x0 => .ldyImm b1
  | 0x1 => .ldaIzx b1
  | 0x2 => .ldxImm b1
  | 0x4 => .ldyZp b1
  | 0x5 => .ldaZp b1
  | 0x6 => .ldxZp b1
  | 0x8 => .tay
  | 0x9 => .ldaImm b1
  | 0xA => .tax
  | 0xC => .ldyAbs (wordOf b2 b1)
  | 0xD => .ldaAbs (wordOf b2 b1)
  | 0xE => .ldxAbs (wordOf b2 b1)
  | _ => .illegal op

/-- Row Bx of R60. `b1` and `b2` are the bytes after the opcode; a row takes the ones it has. -/
def decodeRowB (op : Byte) (b1 b2 : Byte) : Instr :=
  match op.toNat % 16 with
  | 0x0 => .bcs b1
  | 0x1 => .ldaIzy b1
  | 0x4 => .ldyZpx b1
  | 0x5 => .ldaZpx b1
  | 0x6 => .ldxZpy b1
  | 0x8 => .clv
  | 0x9 => .ldaAbsy (wordOf b2 b1)
  | 0xA => .tsx
  | 0xC => .ldyAbsx (wordOf b2 b1)
  | 0xD => .ldaAbsx (wordOf b2 b1)
  | 0xE => .ldxAbsy (wordOf b2 b1)
  | _ => .illegal op

/-- Row Cx of R60. `b1` and `b2` are the bytes after the opcode; a row takes the ones it has. -/
def decodeRowC (op : Byte) (b1 b2 : Byte) : Instr :=
  match op.toNat % 16 with
  | 0x0 => .cpyImm b1
  | 0x1 => .cmpIzx b1
  | 0x4 => .cpyZp b1
  | 0x5 => .cmpZp b1
  | 0x6 => .decZp b1
  | 0x8 => .iny
  | 0x9 => .cmpImm b1
  | 0xA => .dex
  | 0xC => .cpyAbs (wordOf b2 b1)
  | 0xD => .cmpAbs (wordOf b2 b1)
  | 0xE => .decAbs (wordOf b2 b1)
  | _ => .illegal op

/-- Row Dx of R60. `b1` and `b2` are the bytes after the opcode; a row takes the ones it has. -/
def decodeRowD (op : Byte) (b1 b2 : Byte) : Instr :=
  match op.toNat % 16 with
  | 0x0 => .bne b1
  | 0x1 => .cmpIzy b1
  | 0x5 => .cmpZpx b1
  | 0x6 => .decZpx b1
  | 0x8 => .cld
  | 0x9 => .cmpAbsy (wordOf b2 b1)
  | 0xD => .cmpAbsx (wordOf b2 b1)
  | 0xE => .decAbsx (wordOf b2 b1)
  | _ => .illegal op

/-- Row Ex of R60. `b1` and `b2` are the bytes after the opcode; a row takes the ones it has. -/
def decodeRowE (op : Byte) (b1 b2 : Byte) : Instr :=
  match op.toNat % 16 with
  | 0x0 => .cpxImm b1
  | 0x1 => .sbcIzx b1
  | 0x4 => .cpxZp b1
  | 0x5 => .sbcZp b1
  | 0x6 => .incZp b1
  | 0x8 => .inx
  | 0x9 => .sbcImm b1
  | 0xA => .nop
  | 0xC => .cpxAbs (wordOf b2 b1)
  | 0xD => .sbcAbs (wordOf b2 b1)
  | 0xE => .incAbs (wordOf b2 b1)
  | _ => .illegal op

/-- Row Fx of R60. `b1` and `b2` are the bytes after the opcode; a row takes the ones it has. -/
def decodeRowF (op : Byte) (b1 b2 : Byte) : Instr :=
  match op.toNat % 16 with
  | 0x0 => .beq b1
  | 0x1 => .sbcIzy b1
  | 0x5 => .sbcZpx b1
  | 0x6 => .incZpx b1
  | 0x8 => .sed
  | 0x9 => .sbcAbsy (wordOf b2 b1)
  | 0xD => .sbcAbsx (wordOf b2 b1)
  | 0xE => .incAbsx (wordOf b2 b1)
  | _ => .illegal op

/-- `TABLE[op]` applied to the operand bytes (R59): total, and an opcode with no semantics is `illegal`. No state and no
other byte changes which row is taken. -/
def build (op b1 b2 : Byte) : Instr :=
  match op.toNat / 16 with
  | 0x0 => decodeRow0 op b1 b2
  | 0x1 => decodeRow1 op b1 b2
  | 0x2 => decodeRow2 op b1 b2
  | 0x3 => decodeRow3 op b1 b2
  | 0x4 => decodeRow4 op b1 b2
  | 0x5 => decodeRow5 op b1 b2
  | 0x6 => decodeRow6 op b1 b2
  | 0x7 => decodeRow7 op b1 b2
  | 0x8 => decodeRow8 op b1 b2
  | 0x9 => decodeRow9 op b1 b2
  | 0xA => decodeRowA op b1 b2
  | 0xB => decodeRowB op b1 b2
  | 0xC => decodeRowC op b1 b2
  | 0xD => decodeRowD op b1 b2
  | 0xE => decodeRowE op b1 b2
  | _ => decodeRowF op b1 b2

/-! ## The descriptor of an instruction (R55) -/

/-- The addressing form with its operand. An illegal row consumes no operand byte (R59). -/
def Instr.form : Instr → Form
  | .ldaImm b => .imm b
  | .ldaZp b => .mem (.zp b)
  | .ldaZpx b => .mem (.zpx b)
  | .ldaAbs w => .mem (.abs w)
  | .ldaAbsx w => .mem (.absx w)
  | .ldaAbsy w => .mem (.absy w)
  | .ldaIzx b => .mem (.izx b)
  | .ldaIzy b => .mem (.izy b)
  | .ldxImm b => .imm b
  | .ldxZp b => .mem (.zp b)
  | .ldxZpy b => .mem (.zpy b)
  | .ldxAbs w => .mem (.abs w)
  | .ldxAbsy w => .mem (.absy w)
  | .ldyImm b => .imm b
  | .ldyZp b => .mem (.zp b)
  | .ldyZpx b => .mem (.zpx b)
  | .ldyAbs w => .mem (.abs w)
  | .ldyAbsx w => .mem (.absx w)
  | .staZp b => .mem (.zp b)
  | .staZpx b => .mem (.zpx b)
  | .staAbs w => .mem (.abs w)
  | .staAbsx w => .mem (.absx w)
  | .staAbsy w => .mem (.absy w)
  | .staIzx b => .mem (.izx b)
  | .staIzy b => .mem (.izy b)
  | .stxZp b => .mem (.zp b)
  | .stxZpy b => .mem (.zpy b)
  | .stxAbs w => .mem (.abs w)
  | .styZp b => .mem (.zp b)
  | .styZpx b => .mem (.zpx b)
  | .styAbs w => .mem (.abs w)
  | .tax => .imp
  | .tay => .imp
  | .txa => .imp
  | .tya => .imp
  | .tsx => .imp
  | .txs => .imp
  | .pha => .imp
  | .pla => .imp
  | .php => .imp
  | .plp => .imp
  | .oraImm b => .imm b
  | .oraZp b => .mem (.zp b)
  | .oraZpx b => .mem (.zpx b)
  | .oraAbs w => .mem (.abs w)
  | .oraAbsx w => .mem (.absx w)
  | .oraAbsy w => .mem (.absy w)
  | .oraIzx b => .mem (.izx b)
  | .oraIzy b => .mem (.izy b)
  | .andImm b => .imm b
  | .andZp b => .mem (.zp b)
  | .andZpx b => .mem (.zpx b)
  | .andAbs w => .mem (.abs w)
  | .andAbsx w => .mem (.absx w)
  | .andAbsy w => .mem (.absy w)
  | .andIzx b => .mem (.izx b)
  | .andIzy b => .mem (.izy b)
  | .eorImm b => .imm b
  | .eorZp b => .mem (.zp b)
  | .eorZpx b => .mem (.zpx b)
  | .eorAbs w => .mem (.abs w)
  | .eorAbsx w => .mem (.absx w)
  | .eorAbsy w => .mem (.absy w)
  | .eorIzx b => .mem (.izx b)
  | .eorIzy b => .mem (.izy b)
  | .adcImm b => .imm b
  | .adcZp b => .mem (.zp b)
  | .adcZpx b => .mem (.zpx b)
  | .adcAbs w => .mem (.abs w)
  | .adcAbsx w => .mem (.absx w)
  | .adcAbsy w => .mem (.absy w)
  | .adcIzx b => .mem (.izx b)
  | .adcIzy b => .mem (.izy b)
  | .sbcImm b => .imm b
  | .sbcZp b => .mem (.zp b)
  | .sbcZpx b => .mem (.zpx b)
  | .sbcAbs w => .mem (.abs w)
  | .sbcAbsx w => .mem (.absx w)
  | .sbcAbsy w => .mem (.absy w)
  | .sbcIzx b => .mem (.izx b)
  | .sbcIzy b => .mem (.izy b)
  | .cmpImm b => .imm b
  | .cmpZp b => .mem (.zp b)
  | .cmpZpx b => .mem (.zpx b)
  | .cmpAbs w => .mem (.abs w)
  | .cmpAbsx w => .mem (.absx w)
  | .cmpAbsy w => .mem (.absy w)
  | .cmpIzx b => .mem (.izx b)
  | .cmpIzy b => .mem (.izy b)
  | .cpxImm b => .imm b
  | .cpxZp b => .mem (.zp b)
  | .cpxAbs w => .mem (.abs w)
  | .cpyImm b => .imm b
  | .cpyZp b => .mem (.zp b)
  | .cpyAbs w => .mem (.abs w)
  | .bitZp b => .mem (.zp b)
  | .bitAbs w => .mem (.abs w)
  | .incZp b => .mem (.zp b)
  | .incZpx b => .mem (.zpx b)
  | .incAbs w => .mem (.abs w)
  | .incAbsx w => .mem (.absx w)
  | .decZp b => .mem (.zp b)
  | .decZpx b => .mem (.zpx b)
  | .decAbs w => .mem (.abs w)
  | .decAbsx w => .mem (.absx w)
  | .inx => .imp
  | .dex => .imp
  | .iny => .imp
  | .dey => .imp
  | .aslAcc => .acc
  | .aslZp b => .mem (.zp b)
  | .aslZpx b => .mem (.zpx b)
  | .aslAbs w => .mem (.abs w)
  | .aslAbsx w => .mem (.absx w)
  | .lsrAcc => .acc
  | .lsrZp b => .mem (.zp b)
  | .lsrZpx b => .mem (.zpx b)
  | .lsrAbs w => .mem (.abs w)
  | .lsrAbsx w => .mem (.absx w)
  | .rolAcc => .acc
  | .rolZp b => .mem (.zp b)
  | .rolZpx b => .mem (.zpx b)
  | .rolAbs w => .mem (.abs w)
  | .rolAbsx w => .mem (.absx w)
  | .rorAcc => .acc
  | .rorZp b => .mem (.zp b)
  | .rorZpx b => .mem (.zpx b)
  | .rorAbs w => .mem (.abs w)
  | .rorAbsx w => .mem (.absx w)
  | .bpl d => .rel d
  | .bmi d => .rel d
  | .bvc d => .rel d
  | .bvs d => .rel d
  | .bcc d => .rel d
  | .bcs d => .rel d
  | .bne d => .rel d
  | .beq d => .rel d
  | .jmpAbs w => .mem (.abs w)
  | .jmpInd w => .mem (.ind w)
  | .jsrAbs w => .mem (.abs w)
  | .rts => .imp
  | .brk => .imp
  | .rti => .imp
  | .clc => .imp
  | .sec => .imp
  | .cli => .imp
  | .sei => .imp
  | .clv => .imp
  | .cld => .imp
  | .sed => .imp
  | .nop => .imp
  | .hlt => .imp
  | .illegal _ => .imp

/-- The mnemonic. -/
def Instr.mnemonic : Instr → Mnemonic
  | .ldaImm _ => .lda
  | .ldaZp _ => .lda
  | .ldaZpx _ => .lda
  | .ldaAbs _ => .lda
  | .ldaAbsx _ => .lda
  | .ldaAbsy _ => .lda
  | .ldaIzx _ => .lda
  | .ldaIzy _ => .lda
  | .ldxImm _ => .ldx
  | .ldxZp _ => .ldx
  | .ldxZpy _ => .ldx
  | .ldxAbs _ => .ldx
  | .ldxAbsy _ => .ldx
  | .ldyImm _ => .ldy
  | .ldyZp _ => .ldy
  | .ldyZpx _ => .ldy
  | .ldyAbs _ => .ldy
  | .ldyAbsx _ => .ldy
  | .staZp _ => .sta
  | .staZpx _ => .sta
  | .staAbs _ => .sta
  | .staAbsx _ => .sta
  | .staAbsy _ => .sta
  | .staIzx _ => .sta
  | .staIzy _ => .sta
  | .stxZp _ => .stx
  | .stxZpy _ => .stx
  | .stxAbs _ => .stx
  | .styZp _ => .sty
  | .styZpx _ => .sty
  | .styAbs _ => .sty
  | .tax => .tax
  | .tay => .tay
  | .txa => .txa
  | .tya => .tya
  | .tsx => .tsx
  | .txs => .txs
  | .pha => .pha
  | .pla => .pla
  | .php => .php
  | .plp => .plp
  | .oraImm _ => .ora
  | .oraZp _ => .ora
  | .oraZpx _ => .ora
  | .oraAbs _ => .ora
  | .oraAbsx _ => .ora
  | .oraAbsy _ => .ora
  | .oraIzx _ => .ora
  | .oraIzy _ => .ora
  | .andImm _ => .and
  | .andZp _ => .and
  | .andZpx _ => .and
  | .andAbs _ => .and
  | .andAbsx _ => .and
  | .andAbsy _ => .and
  | .andIzx _ => .and
  | .andIzy _ => .and
  | .eorImm _ => .eor
  | .eorZp _ => .eor
  | .eorZpx _ => .eor
  | .eorAbs _ => .eor
  | .eorAbsx _ => .eor
  | .eorAbsy _ => .eor
  | .eorIzx _ => .eor
  | .eorIzy _ => .eor
  | .adcImm _ => .adc
  | .adcZp _ => .adc
  | .adcZpx _ => .adc
  | .adcAbs _ => .adc
  | .adcAbsx _ => .adc
  | .adcAbsy _ => .adc
  | .adcIzx _ => .adc
  | .adcIzy _ => .adc
  | .sbcImm _ => .sbc
  | .sbcZp _ => .sbc
  | .sbcZpx _ => .sbc
  | .sbcAbs _ => .sbc
  | .sbcAbsx _ => .sbc
  | .sbcAbsy _ => .sbc
  | .sbcIzx _ => .sbc
  | .sbcIzy _ => .sbc
  | .cmpImm _ => .cmp
  | .cmpZp _ => .cmp
  | .cmpZpx _ => .cmp
  | .cmpAbs _ => .cmp
  | .cmpAbsx _ => .cmp
  | .cmpAbsy _ => .cmp
  | .cmpIzx _ => .cmp
  | .cmpIzy _ => .cmp
  | .cpxImm _ => .cpx
  | .cpxZp _ => .cpx
  | .cpxAbs _ => .cpx
  | .cpyImm _ => .cpy
  | .cpyZp _ => .cpy
  | .cpyAbs _ => .cpy
  | .bitZp _ => .bit
  | .bitAbs _ => .bit
  | .incZp _ => .inc
  | .incZpx _ => .inc
  | .incAbs _ => .inc
  | .incAbsx _ => .inc
  | .decZp _ => .dec
  | .decZpx _ => .dec
  | .decAbs _ => .dec
  | .decAbsx _ => .dec
  | .inx => .inx
  | .dex => .dex
  | .iny => .iny
  | .dey => .dey
  | .aslAcc => .asl
  | .aslZp _ => .asl
  | .aslZpx _ => .asl
  | .aslAbs _ => .asl
  | .aslAbsx _ => .asl
  | .lsrAcc => .lsr
  | .lsrZp _ => .lsr
  | .lsrZpx _ => .lsr
  | .lsrAbs _ => .lsr
  | .lsrAbsx _ => .lsr
  | .rolAcc => .rol
  | .rolZp _ => .rol
  | .rolZpx _ => .rol
  | .rolAbs _ => .rol
  | .rolAbsx _ => .rol
  | .rorAcc => .ror
  | .rorZp _ => .ror
  | .rorZpx _ => .ror
  | .rorAbs _ => .ror
  | .rorAbsx _ => .ror
  | .bpl _ => .bpl
  | .bmi _ => .bmi
  | .bvc _ => .bvc
  | .bvs _ => .bvs
  | .bcc _ => .bcc
  | .bcs _ => .bcs
  | .bne _ => .bne
  | .beq _ => .beq
  | .jmpAbs _ => .jmp
  | .jmpInd _ => .jmp
  | .jsrAbs _ => .jsr
  | .rts => .rts
  | .brk => .brk
  | .rti => .rti
  | .clc => .clc
  | .sec => .sec
  | .cli => .cli
  | .sei => .sei
  | .clv => .clv
  | .cld => .cld
  | .sed => .sed
  | .nop => .nop
  | .hlt => .hlt
  | .illegal _ => .illegal

/-- The addressing mode of a form that has an effective address (R54). -/
def MemForm.mode : MemForm → Mode
  | .zp _ => .zp
  | .zpx _ => .zpx
  | .zpy _ => .zpy
  | .abs _ => .abs
  | .absx _ => .absx
  | .absy _ => .absy
  | .ind _ => .ind
  | .izx _ => .izx
  | .izy _ => .izy

/-- The addressing mode of a form (R54). -/
def Form.mode : Form → Mode
  | .imp => .imp
  | .acc => .acc
  | .imm _ => .imm
  | .rel _ => .rel
  | .mem m => m.mode

/-- How many operand bytes a mode has (R54). -/
def Mode.operandBytes : Mode → Nat
  | .imp | .acc => 0
  | .imm | .zp | .zpx | .zpy | .izx | .izy | .rel => 1
  | .abs | .absx | .absy | .ind => 2

/-- The addressing mode of an instruction. -/
def Instr.mode (i : Instr) : Mode := i.form.mode

/-- The length of an instruction in bytes, `1 + bytes(mode)` (R59). -/
def Instr.length (i : Instr) : Nat := 1 + i.mode.operandBytes

/-- How many operand bytes follow the opcode `op` (R59, R64: the opcode byte alone fixes it). -/
def operandCount (op : Byte) : Nat := (build op 0 0).mode.operandBytes

/-! ## Decoding a list of bytes -/

/-- Why a list of bytes does not decode. An illegal opcode is no error: it decodes to `illegal`, whose execution records
the fault (R59). -/
inductive DecodeError where
  /-- there is no opcode byte -/
  | noOpcode
  /-- the list ends before the operand bytes of `op` -/
  | truncated (op : Byte)
  deriving DecidableEq, Repr

/-- Read one instruction off the front of a list of bytes and answer it with the rest (R53). -/
def decode : List Byte → Except DecodeError (Instr × List Byte)
  | [] => .error .noOpcode
  | op :: rest =>
    match operandCount op, rest with
    | 0, rest => .ok (build op 0 0, rest)
    | 1, b1 :: rest => .ok (build op b1 0, rest)
    | 2, b1 :: b2 :: rest => .ok (build op b1 b2, rest)
    | _, _ => .error (.truncated op)

/-- Byte `k` of an instruction's bits as spec/opcode_table.json numbers them: bit 0 is the least significant bit of the
opcode byte, the bits above `nbits` are 0. -/
def tableByte (nbits w k : Nat) : Byte := BitVec.ofNat 8 ((w % 2 ^ nbits) / 2 ^ (8 * k))

/-- The instruction the decoder reads from the bits `w` of a row of spec/opcode_table.json. -/
def decodeTableWord (nbits w : Nat) : Option Instr :=
  match decode [tableByte nbits w 0, tableByte nbits w 1, tableByte nbits w 2] with
  | .ok (i, _) => some i
  | .error _ => none

/-! ## The encoder -/

/-- The opcode byte of an instruction, from R60's table by mnemonics. -/
def Instr.opcode : Instr → Byte
  | .adcAbs _ => 0x6D#8
  | .adcAbsx _ => 0x7D#8
  | .adcAbsy _ => 0x79#8
  | .adcImm _ => 0x69#8
  | .adcIzx _ => 0x61#8
  | .adcIzy _ => 0x71#8
  | .adcZp _ => 0x65#8
  | .adcZpx _ => 0x75#8
  | .andAbs _ => 0x2D#8
  | .andAbsx _ => 0x3D#8
  | .andAbsy _ => 0x39#8
  | .andImm _ => 0x29#8
  | .andIzx _ => 0x21#8
  | .andIzy _ => 0x31#8
  | .andZp _ => 0x25#8
  | .andZpx _ => 0x35#8
  | .aslAbs _ => 0x0E#8
  | .aslAbsx _ => 0x1E#8
  | .aslAcc => 0x0A#8
  | .aslZp _ => 0x06#8
  | .aslZpx _ => 0x16#8
  | .bcc _ => 0x90#8
  | .bcs _ => 0xB0#8
  | .beq _ => 0xF0#8
  | .bitAbs _ => 0x2C#8
  | .bitZp _ => 0x24#8
  | .bmi _ => 0x30#8
  | .bne _ => 0xD0#8
  | .bpl _ => 0x10#8
  | .brk => 0x00#8
  | .bvc _ => 0x50#8
  | .bvs _ => 0x70#8
  | .clc => 0x18#8
  | .cld => 0xD8#8
  | .cli => 0x58#8
  | .clv => 0xB8#8
  | .cmpAbs _ => 0xCD#8
  | .cmpAbsx _ => 0xDD#8
  | .cmpAbsy _ => 0xD9#8
  | .cmpImm _ => 0xC9#8
  | .cmpIzx _ => 0xC1#8
  | .cmpIzy _ => 0xD1#8
  | .cmpZp _ => 0xC5#8
  | .cmpZpx _ => 0xD5#8
  | .cpxAbs _ => 0xEC#8
  | .cpxImm _ => 0xE0#8
  | .cpxZp _ => 0xE4#8
  | .cpyAbs _ => 0xCC#8
  | .cpyImm _ => 0xC0#8
  | .cpyZp _ => 0xC4#8
  | .decAbs _ => 0xCE#8
  | .decAbsx _ => 0xDE#8
  | .decZp _ => 0xC6#8
  | .decZpx _ => 0xD6#8
  | .dex => 0xCA#8
  | .dey => 0x88#8
  | .eorAbs _ => 0x4D#8
  | .eorAbsx _ => 0x5D#8
  | .eorAbsy _ => 0x59#8
  | .eorImm _ => 0x49#8
  | .eorIzx _ => 0x41#8
  | .eorIzy _ => 0x51#8
  | .eorZp _ => 0x45#8
  | .eorZpx _ => 0x55#8
  | .hlt => 0x02#8
  | .incAbs _ => 0xEE#8
  | .incAbsx _ => 0xFE#8
  | .incZp _ => 0xE6#8
  | .incZpx _ => 0xF6#8
  | .inx => 0xE8#8
  | .iny => 0xC8#8
  | .jmpAbs _ => 0x4C#8
  | .jmpInd _ => 0x6C#8
  | .jsrAbs _ => 0x20#8
  | .ldaAbs _ => 0xAD#8
  | .ldaAbsx _ => 0xBD#8
  | .ldaAbsy _ => 0xB9#8
  | .ldaImm _ => 0xA9#8
  | .ldaIzx _ => 0xA1#8
  | .ldaIzy _ => 0xB1#8
  | .ldaZp _ => 0xA5#8
  | .ldaZpx _ => 0xB5#8
  | .ldxAbs _ => 0xAE#8
  | .ldxAbsy _ => 0xBE#8
  | .ldxImm _ => 0xA2#8
  | .ldxZp _ => 0xA6#8
  | .ldxZpy _ => 0xB6#8
  | .ldyAbs _ => 0xAC#8
  | .ldyAbsx _ => 0xBC#8
  | .ldyImm _ => 0xA0#8
  | .ldyZp _ => 0xA4#8
  | .ldyZpx _ => 0xB4#8
  | .lsrAbs _ => 0x4E#8
  | .lsrAbsx _ => 0x5E#8
  | .lsrAcc => 0x4A#8
  | .lsrZp _ => 0x46#8
  | .lsrZpx _ => 0x56#8
  | .nop => 0xEA#8
  | .oraAbs _ => 0x0D#8
  | .oraAbsx _ => 0x1D#8
  | .oraAbsy _ => 0x19#8
  | .oraImm _ => 0x09#8
  | .oraIzx _ => 0x01#8
  | .oraIzy _ => 0x11#8
  | .oraZp _ => 0x05#8
  | .oraZpx _ => 0x15#8
  | .pha => 0x48#8
  | .php => 0x08#8
  | .pla => 0x68#8
  | .plp => 0x28#8
  | .rolAbs _ => 0x2E#8
  | .rolAbsx _ => 0x3E#8
  | .rolAcc => 0x2A#8
  | .rolZp _ => 0x26#8
  | .rolZpx _ => 0x36#8
  | .rorAbs _ => 0x6E#8
  | .rorAbsx _ => 0x7E#8
  | .rorAcc => 0x6A#8
  | .rorZp _ => 0x66#8
  | .rorZpx _ => 0x76#8
  | .rti => 0x40#8
  | .rts => 0x60#8
  | .sbcAbs _ => 0xED#8
  | .sbcAbsx _ => 0xFD#8
  | .sbcAbsy _ => 0xF9#8
  | .sbcImm _ => 0xE9#8
  | .sbcIzx _ => 0xE1#8
  | .sbcIzy _ => 0xF1#8
  | .sbcZp _ => 0xE5#8
  | .sbcZpx _ => 0xF5#8
  | .sec => 0x38#8
  | .sed => 0xF8#8
  | .sei => 0x78#8
  | .staAbs _ => 0x8D#8
  | .staAbsx _ => 0x9D#8
  | .staAbsy _ => 0x99#8
  | .staIzx _ => 0x81#8
  | .staIzy _ => 0x91#8
  | .staZp _ => 0x85#8
  | .staZpx _ => 0x95#8
  | .stxAbs _ => 0x8E#8
  | .stxZp _ => 0x86#8
  | .stxZpy _ => 0x96#8
  | .styAbs _ => 0x8C#8
  | .styZp _ => 0x84#8
  | .styZpx _ => 0x94#8
  | .tax => 0xAA#8
  | .tay => 0xA8#8
  | .tsx => 0xBA#8
  | .txa => 0x8A#8
  | .txs => 0x9A#8
  | .tya => 0x98#8
  | .illegal op => op

/-- The operand bytes of a form with an effective address, a word's low byte first (R46, R53). -/
def MemForm.bytes : MemForm → List Byte
  | .zp b | .zpx b | .zpy b | .izx b | .izy b => [b]
  | .abs w | .absx w | .absy w | .ind w => [loByte w, hiByte w]

/-- The operand bytes of a form (R53, R58). -/
def Form.bytes : Form → List Byte
  | .imp | .acc => []
  | .imm b | .rel b => [b]
  | .mem m => m.bytes

/-- The bytes of an instruction (R53). -/
def encode (i : Instr) : List Byte := i.opcode :: i.form.bytes

/-! ## The assembler's contract (R66, R67): bytes only, outside the block -/

/-- Why the assembler refuses. -/
inductive AsmError where
  /-- the mnemonic has no opcode in this mode (R66, requirement 1) -/
  | unknownEncoding
  /-- the mnemonic and mode are an illegal descriptor's (R66, requirement 2) -/
  | unimplementedOpcode
  /-- a branch displacement outside -128..127 (R67, 93_implementation_defined.md U19) -/
  | branchOutOfRange
  deriving DecidableEq, Repr

/-- Every opcode byte, in order. -/
def allOpcodes : List Byte := (List.range 256).map (BitVec.ofNat 8)

/-- The first opcode whose descriptor is (`m`, `md`), looked up in the decoder's own table as R66 asks. -/
def opcodeFor (m : Mnemonic) (md : Mode) : Option Byte :=
  allOpcodes.find? fun op => decide ((build op 0 0).mnemonic = m ∧ (build op 0 0).mode = md)

/-- The opcode that assembles a mnemonic in a mode, or the refusal of the pair (R66, requirements 1 and 2). No mnemonic of a source
line has an illegal descriptor, so requirement 2 fires only on the table's own "(illegal)". -/
def assembleOpcode (m : Mnemonic) (md : Mode) : Except AsmError Byte :=
  match opcodeFor m md with
  | some op => if isIllegalByte op then .error .unimplementedOpcode else .ok op
  | none => .error .unknownEncoding

/-- Assemble a mnemonic with a form (R66): the opcode of the pair, then the operand bytes. -/
def assemble (m : Mnemonic) (f : Form) : Except AsmError (List Byte) :=
  match assembleOpcode m f.mode with
  | .ok op => .ok (op :: f.bytes)
  | .error x => .error x

/-- The displacement byte of a branch at `source` to `target` (R67): `target - source - 2` as a mathematical integer,
reduced to a byte, and refused outside -128..127. -/
def branchByte (source target : Word) : Except AsmError Byte :=
  let d : Int := (target.toNat : Int) - source.toNat - 2
  if -128 ≤ d ∧ d ≤ 127 then .ok (BitVec.ofInt 8 d) else .error .branchOutOfRange

/-- The operand of a source line (R65): the form its mode takes, or a branch's target. -/
inductive SourceOperand where
  | form (f : Form)
  | target (t : Word)
  deriving DecidableEq, Repr

/-- One source line (R65), after the front end has read its text. -/
structure SourceLine where
  mnemonic : Mnemonic
  operand : SourceOperand
  deriving DecidableEq, Repr

/-- The bytes of a line that stands at address `a` (R66, R67). A target is the operand of mode `rel`: a pair that R66 refuses is
refused before the distance of the target is looked at. -/
def assembleLine (a : Word) (l : SourceLine) : Except AsmError (List Byte) :=
  match l.operand with
  | .form f => assemble l.mnemonic f
  | .target t =>
    match assembleOpcode l.mnemonic .rel with
    | .ok op =>
      match branchByte a t with
      | .ok e => .ok (op :: (Form.rel e).bytes)
      | .error x => .error x
    | .error x => .error x

/-- The bytes of lines that stand one after another from address `a` on; the first line that fails is the failure. -/
def assembleLines (a : Word) : List SourceLine → Except AsmError (List Byte)
  | [] => .ok []
  | l :: rest =>
    match assembleLine a l with
    | .ok bs =>
      match assembleLines (a + BitVec.ofNat 16 bs.length) rest with
      | .ok more => .ok (bs ++ more)
      | .error x => .error x
    | .error x => .error x

/-- HLT or RTS: what a source may already end in (R66, requirement 3). -/
def SourceLine.endsProgram (l : SourceLine) : Bool := decide (l.mnemonic = .hlt ∨ l.mnemonic = .rts)

/-- The halt or return of R66, requirement 3; which of the two is free (93_implementation_defined.md U20). -/
def trailingLine (n : Nat) : SourceLine where
  mnemonic := if Config.trailingIsHalt n then .hlt else .rts
  operand := .form .imp

/-- A source with the implicit trailing instruction, appended where it does not already end in one (R66, requirement 3). -/
def withTrailing (n : Nat) (source : List SourceLine) : List SourceLine :=
  if source.getLast?.any SourceLine.endsProgram then source else source ++ [trailingLine n]

/-- The byte stream that the `n`-th assembly produces for a source at base address `a` (R66). -/
def assembleProgram (n : Nat) (a : Word) (source : List SourceLine) : Except AsmError (List Byte) :=
  assembleLines a (withTrailing n source)

end Sys2Proof
end

