-- ==== Sys2Proof/Machine/State.lean ====
section
/-! DEFINITION. The state of the machine (10_state.md R17, 20_memory.md R37, 60_exceptions.md R132), the two reasons a
step can stop, and the machine right after reset (10_state.md R35). Plain data throughout. -/

namespace Sys2Proof.Machine

open Sys2Proof

/-- The seven status flags (10_state.md R26). The reserved bit is not stored: it reads as 1 in the packed byte. -/
structure Flags where
  /-- negative, bit 7 of the packed byte -/
  n : Bool
  /-- overflow, bit 6 -/
  v : Bool
  /-- break, bit 4: a stored flag in this design -/
  b : Bool
  /-- decimal, bit 3 -/
  d : Bool
  /-- interrupt-disable, bit 2 -/
  i : Bool
  /-- zero, bit 1 -/
  z : Bool
  /-- carry, bit 0 -/
  c : Bool
  deriving DecidableEq, Repr

/-- The three kinds of fault (60_exceptions.md R130). -/
inductive FaultKind where
  | unimplementedOpcode
  | stackOverflow
  | stackUnderflow
  deriving DecidableEq, Repr

/-- The fault record (60_exceptions.md R132). -/
structure FaultRecord where
  kind : FaultKind
  /-- the opcode byte of the faulting instruction -/
  opcode : Byte
  /-- the address that opcode was fetched from -/
  address : Word
  deriving DecidableEq, Repr

/-- What serves an address (20_memory.md R37). -/
inductive Region where
  /-- cell `a` is element `a - base` of byte array `id` -/
  | store (id base : Nat) (writable : Bool)
  /-- cell `a` is served by the external handler `h` -/
  | device (h : Nat)
  | unmapped
  deriving DecidableEq, Repr

/-- One `map` of the inclusive range `lo` to `hi` (20_memory.md R41). -/
structure Binding where
  lo : Nat
  hi : Nat
  region : Region
  deriving DecidableEq, Repr

/-- The memory subsystem (20_memory.md R37). `bindings` is the region map, newest `map` first; an address no binding
covers is unmapped. `cells` is the contents of the byte arrays: element `k` of array `id` is the cell `id * 0x10000 + k`, so
a cell of the default RAM (array 0, base 0) is its own bus address. Only cells that differ from `Memory.initial` are listed,
by rising number (`Memory.wf`). DESIGN CHOICE, logs 8 to 10: safe. -/
structure Memory where
  bindings : List Binding
  cells : List Host.Cell
  deriving DecidableEq, Repr

/-- One access a device handler has seen (20_memory.md R38, R39). R39 records the writes; the reads are the model's addition
(log 6), so that the order of R57 can be stated. -/
inductive DevAccess where
  | read (h : Nat) (a : Word) (v : Byte)
  | write (h : Nat) (a : Word) (v : Byte)
  deriving DecidableEq, Repr

/-- The 8-bit registers `Load(R, v)` can name (10_state.md R18, R22, R29). -/
inductive Reg where
  | a | x | y | sp
  deriving DecidableEq, Repr

/-- The whole machine. -/
structure State where
  /-- A, the accumulator (R18) -/
  a : Byte
  /-- X (R18) -/
  x : Byte
  /-- Y (R18) -/
  y : Byte
  /-- PC (R20) -/
  pc : Word
  /-- SP, an offset into page 1 (R22) -/
  sp : Byte
  /-- the status flags (R26) -/
  flags : Flags
  /-- IR, the last-fetched opcode byte (R31) -/
  ir : Byte
  /-- BUS, diagnostic (R32) -/
  bus : Byte
  /-- the run state (R33) -/
  halted : Bool
  /-- the fault that ended the run, if one did (R17, 60_exceptions.md R132) -/
  fault : Option FaultRecord
  /-- memory and the region map (20_memory.md R37) -/
  mem : Memory
  /-- the launch parameters (00_scope.md R9), constant in a run -/
  params : Params
  /-- the device events, newest first (20_memory.md R39) -/
  devLog : List DevAccess
  /-- MODEL'S OWN: how many free values have been drawn (BUS and device reads), logs 4 to 6 -/
  draws : Nat
  deriving DecidableEq, Repr

/-- Why a step answers no next state: no step is possible until `reset` (93_implementation_defined.md U24). Safe: a
stopped machine has no later state in the spec either. The three faults of 60_exceptions.md R130 are NEXT states that hold
the fault record (log 2). -/
inductive Fault where
  /-- raised by `step` on a state whose `halted` is true (U24, 45_flag_misc.md R129); safe -/
  | halted
  /-- raised by `step` on a state that holds the fault record `r` (U24, 60_exceptions.md R133); safe -/
  | faulted (r : FaultRecord)
  deriving DecidableEq, Repr

/-- Why an instruction or a host action is given no meaning. No instruction is refused; the host actions of
Machine/HostOps.lean are, where 93_implementation_defined.md says `refuse`. -/
inductive Refusal where
  /-- an arm of `exec` without a meaning: none is left; safe -/
  | notModelled (mnemonic : String)
  /-- raised by `hostMapDevice`, `hostMapBytes` and `hostReset` while the core runs (U12); safe -/
  | coreRunning
  /-- raised by the `map` actions on a range with lo > hi (U11) or beyond 0xFFFF; safe -/
  | badRange
  /-- raised by `hostMapBytes` on an array shorter than its range (U11); safe -/
  | shortArray
  deriving DecidableEq, Repr

/-- All seven flags 0 (10_state.md R35). -/
def Flags.clear : Flags where
  n := false
  v := false
  b := false
  d := false
  i := false
  z := false
  c := false

/-- Memory as constructed (20_memory.md R44): RAM is array 0, the NMI, RESET and IRQ vectors are arrays 1, 2 and 3, bound in
that order; everything else is unmapped. Nothing is listed: what the arrays hold is `Memory.initial`. -/
def Memory.constructed (p : Params) : Memory where
  bindings :=
    [ ⟨0xFFFE, 0xFFFF, .store 3 0xFFFE p.vectorsWritable⟩,
      ⟨0xFFFC, 0xFFFD, .store 2 0xFFFC p.vectorsWritable⟩,
      ⟨0xFFFA, 0xFFFB, .store 1 0xFFFA p.vectorsWritable⟩,
      ⟨0x0000, 0xF6FF, .store 0 0 true⟩ ]
  cells := []

/-- The machine right after reset (10_state.md R35) with the default parameters and the default map (00_scope.md R9). PC is
the word in the RESET vector, 0xFD00. `draws` and `devLog` start empty: DESIGN CHOICE, log 6. -/
def State.reset : State where
  a := 0x00#8
  x := 0x00#8
  y := 0x00#8
  pc := Config.romBase
  sp := 0xFF#8
  flags := Flags.clear
  ir := 0x00#8
  bus := 0x00#8
  halted := false
  fault := none
  mem := Memory.constructed Config.defaults
  params := Config.defaults
  devLog := []
  draws := 0

end Sys2Proof.Machine
end

