-- ==== Sys2Proof/Machine/Flags.lean ====
section
/-! DEFINITION. Every flag computation of the spec: the packed status byte (10_state.md R27, R28), N and Z of a result
(R29), the compare (42_alu.md R86), BIT (R95), and the results and carries of the shifts (43_incdec_shift.md R103-R106). -/

namespace Sys2Proof.Machine

open Sys2Proof

/-- One flag at its bit of the status byte; a Boolean used as a number is 1 or 0 (00_scope.md R10). -/
def bitAt (f : Bool) (k : Nat) : Byte := (if f then 1#8 else 0#8) <<< k

/-- `Pack()` (R27): bit 5 is forced to 1. -/
def Flags.pack (f : Flags) : Byte :=
  bitAt f.n 7 ||| bitAt f.v 6 ||| bitAt true 5 ||| bitAt f.b 4 ||| bitAt f.d 3 ||| bitAt f.i 2 ||| bitAt f.z 1 ||| bitAt f.c 0

/-- `Unpack(b)` (R28): bit 5 is ignored. -/
def Flags.unpack (b : Byte) : Flags where
  n := b.getLsbD 7
  v := b.getLsbD 6
  b := b.getLsbD 4
  d := b.getLsbD 3
  i := b.getLsbD 2
  z := b.getLsbD 1
  c := b.getLsbD 0

/-- N and Z from a result (R29); the other flags are kept. -/
def Flags.setNZ (f : Flags) (r : Byte) : Flags :=
  { f with n := r.getLsbD 7, z := decide (r = 0#8) }

/-- `Compare(r, v)` (42_alu.md R86) on the exact integer difference. `fromBit7` is P_CMP_N_FROM_BIT7. -/
def Flags.compare (f : Flags) (fromBit7 : Bool) (r v : Byte) : Flags :=
  let d : Int := (r.toNat : Int) - v.toNat
  { f with
    n := if fromBit7 then (BitVec.ofInt 8 d).getLsbD 7 else decide (d < 0)
    z := decide (d = 0)
    c := decide (0 ≤ d) }

/-- `BIT` (42_alu.md R95): Z from `A & v`, N and V from `v`. -/
def Flags.bitTest (f : Flags) (a v : Byte) : Flags :=
  { f with n := v.getLsbD 7, v := v.getLsbD 6, z := decide (a &&& v = 0#8) }

/-- ASL (R103): the result. -/
def aslResult (x : Byte) : Byte := x <<< 1
/-- ASL (R103): the new C, bit 7 of the operand. -/
def aslCarry (x : Byte) : Bool := x.getLsbD 7

/-- LSR (R104): the result. -/
def lsrResult (x : Byte) : Byte := x >>> 1
/-- LSR (R104): the new C, bit 0 of the operand. -/
def lsrCarry (x : Byte) : Bool := x.getLsbD 0

/-- ROL (R105): the result, the old C coming in at bit 0. -/
def rolResult (x : Byte) (cin : Bool) : Byte := (x <<< 1) ||| bitAt cin 0
/-- ROL (R105): the new C, bit 7 of the operand. -/
def rolCarry (x : Byte) : Bool := x.getLsbD 7

/-- ROR (R106): the result, the old C coming in at bit 7. -/
def rorResult (x : Byte) (cin : Bool) : Byte := (x >>> 1) ||| bitAt cin 7
/-- ROR (R106): the new C, bit 0 of the operand. -/
def rorCarry (x : Byte) : Bool := x.getLsbD 0

/-- The flags after a shift or rotate: C, then N and Z of the result (R96). -/
def Flags.shifted (f : Flags) (c : Bool) (r : Byte) : Flags := ({ f with c := c }).setNZ r

end Sys2Proof.Machine
end

