-- ==== Sys2Proof/Machine/Ops.lean ====
section
/-! DEFINITION. The named operations every meaning is made of: the dispatcher (20_memory.md R37-R41), register and flag
writes (10_state.md R29), the stack (R23-R25), the fetch (R21, 70_reset_and_hazards.md R148), raising a fault
(60_exceptions.md R132), the one trap entry and its return (R136, R137), and the reset sequence (R146). -/

namespace Sys2Proof.Machine

open Sys2Proof

/-! ## Memory as data -/

/-- What a cell that is not listed holds: the launch contents (20_memory.md R44). RAM_INIT's default is zero; of the three
vectors only the high byte of RESET, element 1 of array 2, is not zero. -/
def Memory.initial (cell : Nat) : Byte := if cell = 0x20001 then 0xFD#8 else 0x00#8

/-- The cell of element `k` of byte array `id`. -/
def cellOf (id k : Nat) : Nat := id * 0x10000 + k

/-- `region(a)` (R37): the newest binding that covers `a`, else unmapped (R41: last call wins). -/
def regionAt : List Binding → Nat → Region
  | [], _ => .unmapped
  | b :: rest, a => if b.lo ≤ a ∧ a ≤ b.hi then b.region else regionAt rest a

/-- `region(a)` of a memory. -/
def Memory.region (m : Memory) (a : Word) : Region := regionAt m.bindings a.toNat

/-- The listed contents of a cell, else what it held at launch. -/
def getCell : List Host.Cell → Nat → Byte
  | [], k => Memory.initial k
  | c :: rest, k => if c.1 = k then c.2 else getCell rest k

/-- Write a cell and keep the canonical form: rising, and nothing listed that equals `Memory.initial`. -/
def setCell : List Host.Cell → Nat → Byte → List Host.Cell
  | [], k, v => if v = Memory.initial k then [] else [(k, v)]
  | c :: rest, k, v =>
    if c.1 < k then c :: setCell rest k v
    else if c.1 = k then (if v = Memory.initial k then rest else (k, v) :: rest)
    else if v = Memory.initial k then c :: rest
    else (k, v) :: c :: rest

/-- The cell list is in canonical form. -/
abbrev cellsWf (l : List Host.Cell) : Prop :=
  l.Pairwise (fun c d => c.1 < d.1) ∧ ∀ c ∈ l, c.2 ≠ Memory.initial c.1

/-- A store region's base is not above the range it serves, so that `a - base` is an element of the array (R37). -/
def Region.fits (r : Region) (lo : Nat) : Bool :=
  match r with
  | .store _ base _ => decide (base ≤ lo)
  | .device _ => true
  | .unmapped => true

/-- A binding covers an inclusive range of bus addresses (R41). -/
abbrev Binding.wf (b : Binding) : Prop := b.lo ≤ b.hi ∧ b.hi ≤ 0xFFFF ∧ b.region.fits b.lo = true

/-- The canonical form of memory: its cell list is canonical and its bindings are ranges of the address space. -/
abbrev Memory.wf (m : Memory) : Prop := cellsWf m.cells ∧ ∀ b ∈ m.bindings, b.wf

/-- Put a byte in a cell of the backing arrays. -/
def Memory.setCell (m : Memory) (k : Nat) (v : Byte) : Memory := { m with cells := Machine.setCell m.cells k v }

/-- What a read of `a` returns when no device serves it (R38): the array's element, or 0x00 where unmapped. `none` at a device
address, where the answer is a draw. This is the model's read of one byte of memory that changes nothing. -/
def Memory.peek (m : Memory) (a : Word) : Option Byte :=
  match m.region a with
  | .store id base _ => some (getCell m.cells (cellOf id (a.toNat - base)))
  | .device _ => none
  | .unmapped => some 0x00#8

/-- The cell a write to `a` changes (R39): none where the address is not a writable store. -/
def Memory.writtenCell (m : Memory) (a : Word) : Option Nat :=
  match m.region a with
  | .store id base true => some (cellOf id (a.toNat - base))
  | .store _ _ false => none
  | .device _ => none
  | .unmapped => none

/-- The cell that backs `a`, written or not. -/
def Memory.backingCell (m : Memory) (a : Word) : Option Nat :=
  match m.region a with
  | .store id base _ => some (cellOf id (a.toNat - base))
  | .device _ => none
  | .unmapped => none

/-! ## `map` (R41), on the memory alone -/

/-- The byte array a region refers to. -/
def Region.array? (r : Region) : Option Nat :=
  match r with
  | .store id _ _ => some id
  | .device _ => none
  | .unmapped => none

/-- The handler a region refers to. -/
def Region.handler? (r : Region) : Option Nat :=
  match r with
  | .store _ _ _ => none
  | .device h => some h
  | .unmapped => none

/-- A number above every one that `used` names in the bindings, reachable or not. -/
def freshNumber (used : Region → Option Nat) : List Binding → Nat
  | [] => 0
  | b :: rest =>
    match used b.region with
    | some k => max (k + 1) (freshNumber used rest)
    | none => freshNumber used rest

/-- The new array `s` of a `map` (R41): no binding refers to it. -/
def freshArray (l : List Binding) : Nat := freshNumber Region.array? l

/-- The new handler `h` of a `map` (R41): no binding refers to it. -/
def freshHandler (l : List Binding) : Nat := freshNumber Region.handler? l

/-- Fill the cells from `k` on. -/
def setCells : List Host.Cell → Nat → List Byte → List Host.Cell
  | l, _, [] => l
  | l, k, v :: vs => setCells (Machine.setCell l k v) (k + 1) vs

/-- `map([lo, hi], handlerPair)`: every address of the range is served by a new handler. -/
def Memory.bindDevice (m : Memory) (lo hi : Nat) : Memory :=
  { m with bindings := ⟨lo, hi, .device (freshHandler m.bindings)⟩ :: m.bindings }

/-- `map([lo, hi], bytes, writable)`: a new array holding `bytes`, based at `lo`. Elements past the range cannot be
reached and are not kept. -/
def Memory.bindBytes (m : Memory) (lo hi : Nat) (bytes : List Byte) (writable : Bool) : Memory :=
  { bindings := ⟨lo, hi, .store (freshArray m.bindings) lo writable⟩ :: m.bindings
    cells := setCells m.cells (cellOf (freshArray m.bindings) 0) (bytes.take (hi + 1 - lo)) }

/-- Bind each of some bytes, from `a` on and wrapping at the top, to a new writable one-byte array (the loader's effect, R45). -/
def placeBytes (a : Word) : List Byte → Memory → Memory
  | [], m => m
  | v :: vs, m => placeBytes (a + 1#16) vs (m.bindBytes a.toNat a.toNat [v] true)

/-- The bytes of the instruction whose bits, as spec/opcode_table.json numbers them, are `w`. -/
def instrBytes (nbits w : Nat) : List Byte :=
  [tableByte nbits w 0, tableByte nbits w 1, tableByte nbits w 2].take (1 + operandCount (tableByte nbits w 0))

/-! ## The dispatcher (R38-R40) -/

/-- A device has seen an access. -/
def State.logDevice (s : State) (e : DevAccess) : State := { s with devLog := e :: s.devLog }

/-- One free value has been drawn. -/
def State.drawn (s : State) : State := { s with draws := s.draws + 1 }

/-- Replace memory. -/
def State.setMem (s : State) (m : Memory) : State := { s with mem := m }

/-- `MemRead(a, 1)` (R38), with the state after it: a device read takes a fresh draw and is seen by the device. -/
def memRead (a : Word) (s : State) : Byte × State :=
  match s.mem.region a with
  | .store id base _ => (getCell s.mem.cells (cellOf id (a.toNat - base)), s)
  | .device h => (Config.devRead s.draws h a, s.drawn.logDevice (.read h a (Config.devRead s.draws h a)))
  | .unmapped => (0x00#8, s)

/-- `MemWrite(a, 1, v)` (R39): a writable store takes the byte, a device records the event, and a write to a store that is
not writable or to an unmapped address is ignored. -/
def memWrite (a : Word) (v : Byte) (s : State) : State :=
  match s.mem.region a with
  | .store id base true => s.setMem (s.mem.setCell (cellOf id (a.toNat - base)) v)
  | .store _ _ false => s
  | .device h => s.logDevice (.write h a v)
  | .unmapped => s

/-- `Read16(a)` (R40): low byte first, the second address wrapping modulo 65536. -/
def read16 (a : Word) (s : State) : Word × State :=
  let lo := memRead a s
  let hi := memRead (a + 1#16) lo.2
  (wordOf hi.1 lo.1, hi.2)

/-! ## Registers and flags -/

/-- `PC <- w`. -/
def State.setPc (s : State) (w : Word) : State := { s with pc := w }

/-- Replace the flags. -/
def State.setFlags (s : State) (f : Flags) : State := { s with flags := f }

/-- The value of a register (10_state.md R18, R22). -/
def State.reg (s : State) : Reg → Byte
  | .a => s.a
  | .x => s.x
  | .y => s.y
  | .sp => s.sp

/-- `R <- v` (R18): none of the registers is hard-wired. -/
def State.setReg (s : State) (r : Reg) (v : Byte) : State :=
  match r with
  | .a => { s with a := v }
  | .x => { s with x := v }
  | .y => { s with y := v }
  | .sp => { s with sp := v }

/-- `Load(R, v)` (R29): the register, then N and Z from the value. -/
def load (r : Reg) (v : Byte) (s : State) : State := (s.setReg r v).setFlags (s.flags.setNZ v)

/-! ## Raising a fault (60_exceptions.md R132, R133) -/

/-- `raise Fault(kind)` in the instruction whose opcode is at `a`: the record takes the opcode from IR (R132). Nothing else
changes, `halted` stays false, and the instruction ends here (R133). -/
def raiseFault (k : FaultKind) (a : Word) (s : State) : State := { s with fault := some ⟨k, s.ir, a⟩ }

/-- The result of an operation that may raise: `ok` goes on, `error` is the state the raise left. -/
abbrev MayRaise (α : Type) := Except State α

/-- The end of an instruction that may have raised. Either way the next state is what the rules wrote (R133). -/
def finish : MayRaise State → Host.Outcome State Fault Refusal
  | .ok s => .next s
  | .error s => .next s

/-! ## The stack (10_state.md R22-R25); `a` is the address of the instruction's opcode, for the fault record -/

/-- The stack cell that SP names, `0x0100 + SP` (R22). -/
def stackAddr (sp : Byte) : Word := Config.stackBase + zext16 sp

/-- `Push(v)` (R23): at SP = 0x00 the fault is raised before anything is written. -/
def push (a : Word) (v : Byte) (s : State) : MayRaise State :=
  if s.sp = 0x00#8 then .error (raiseFault .stackOverflow a s)
  else .ok ((memWrite (stackAddr s.sp) v s).setReg .sp (s.sp - 1#8))

/-- `Pop()` (R24): at SP = 0xFF the fault is raised before SP moves. -/
def pop (a : Word) (s : State) : MayRaise (Byte × State) :=
  if s.sp = 0xFF#8 then .error (raiseFault .stackUnderflow a s)
  else .ok (memRead (stackAddr (s.sp + 1#8)) (s.setReg .sp (s.sp + 1#8)))

/-- Push a word, high byte first (R25): a fault in the second push leaves the first done. -/
def pushWord (a : Word) (w : Word) (s : State) : MayRaise State :=
  match push a (hiByte w) s with
  | .ok s1 => push a (loByte w) s1
  | .error e => .error e

/-- Pull a word, low byte first (R25). -/
def popWord (a : Word) (s : State) : MayRaise (Word × State) :=
  match pop a s with
  | .ok lo =>
    match pop a lo.2 with
    | .ok hi => .ok (wordOf hi.1 lo.1, hi.2)
    | .error e => .error e
  | .error e => .error e

/-! ## The trap: BRK is its only entry, RTI its return (60_exceptions.md R136, R137) -/

/-- Trap entry (R136, 44_control.md R119): PC, the address after the BRK, is pushed, PC is read from the IRQ/BRK vector, and
B and I become 1. No status byte is saved. -/
def takeBreak (a : Word) (s : State) : MayRaise State :=
  match pushWord a s.pc s with
  | .ok s1 =>
    let v := read16 Config.irqVector s1
    let s2 := v.2.setPc v.1
    .ok (s2.setFlags { s2.flags with b := true, i := true })
  | .error e => .error e

/-- Return from subroutine (R118): PC is pulled, with no 1 added. -/
def returnFromSub (a : Word) (s : State) : MayRaise State :=
  match popWord a s with
  | .ok r => .ok (r.2.setPc r.1)
  | .error e => .error e

/-- Trap return (R137, 44_control.md R120): B and I are cleared first, then as RTS. -/
def returnFromBreak (a : Word) (s : State) : MayRaise State :=
  returnFromSub a (s.setFlags { s.flags with b := false, i := false })

/-! ## Fetching an instruction -/

/-- `Fetch()` (10_state.md R21): the byte at PC through the dispatcher, then PC moves on, wrapping. -/
def fetch (s : State) : Byte × State :=
  let r := memRead s.pc s
  (r.1, r.2.setPc (r.2.pc + 1#16))

/-- IR takes the opcode byte (R31). -/
def State.setIr (s : State) (op : Byte) : State := { s with ir := op }

/-- BUS takes a free value (R32): between a reset and a halt it is a draw. Log 4. -/
def State.drawBus (s : State) : State := { s with bus := Config.busValue s.draws, draws := s.draws + 1 }

/-- The opcode fetch, the first action of every step (70_reset_and_hazards.md R148). -/
def fetchOpcode (s : State) : Byte × State :=
  let r := fetch s.drawBus
  (r.1, r.2.setIr r.1)

/-- Fetch the opcode and as many operand bytes as its row has, in order (R149, 30_encoding.md R57), and build the
instruction. An illegal opcode has none, so no operand byte of it is fetched (R59). -/
def fetchInstr (s : State) : Instr × State :=
  let r := fetchOpcode s
  match operandCount r.1 with
  | 0 => (build r.1 0 0, r.2)
  | 1 =>
    let b := fetch r.2
    (build r.1 b.1 0, b.2)
  | _ =>
    let lo := fetch r.2
    let hi := fetch lo.2
    (build r.1 lo.1 hi.1, hi.2)

/-- The address the opcode of `i` was fetched from, when PC is past its operand bytes (10_state.md R20). -/
def opcodeAddr (i : Instr) (s : State) : Word := s.pc - BitVec.ofNat 16 i.length

/-- Why no step is possible, if none is (70_reset_and_hazards.md R151, 93_implementation_defined.md U24). -/
def stopped (s : State) : Option Fault :=
  if s.halted then some .halted
  else
    match s.fault with
    | some r => some (.faulted r)
    | none => none

/-! ## Reset (70_reset_and_hazards.md R146) -/

/-- The register values `reset` writes, PC pointing at the RESET vector. Memory, the map, the parameters and the model's own
records are kept. -/
def State.cleared (s : State) : State :=
  { s with
    sp := 0xFF#8, a := 0x00#8, x := 0x00#8, y := 0x00#8, bus := 0x00#8
    flags := Flags.clear, ir := 0x00#8, halted := false, fault := none
    pc := Config.resetVector }

/-- `reset()` up to its `run()`: the registers, then the absolute jump decode at the RESET vector with its three reads,
the last at the target and discarded. -/
def resetSequence (s : State) : State :=
  let lo := fetch s.cleared
  let hi := fetch lo.2
  let ea := wordOf hi.1 lo.1
  let d := memRead ea hi.2
  d.2.setPc ea

end Sys2Proof.Machine
end

