-- ==== Sys2Proof/Machine/Operands.lean ====
section
/-! DEFINITION. The operand resolver (30_encoding.md R56, R57), after the operand bytes are fetched: every addressing form,
its effective address, the pointer reads that finding it takes, and the one read of the effective address. -/

namespace Sys2Proof.Machine

open Sys2Proof

/-- `zp` indexed by `r` (R56): within page zero or past it, by P_ZP_INDEX_WRAP. -/
def zpIndexed (wrap : Bool) (b r : Byte) : Word := if wrap then zext16 (b + r) else zext16 b + zext16 r

/-- `PtrHi(p)` (R56): where the high byte of the zero-page pointer at `p` stands, by P_ZP_PTR_WRAP. -/
def ptrHi (wrap : Bool) (p : Byte) : Word := if wrap then zext16 (p + 1#8) else zext16 p + 1#16

/-- A zero-page pointer, low byte first; `hiAt` is where its high byte is read. -/
def readPointer (p : Byte) (hiAt : Word) (s : State) : Word × State :=
  let lo := memRead (zext16 p) s
  let hi := memRead hiAt lo.2
  (wordOf hi.1 lo.1, hi.2)

/-- The effective address of a form and the state after the pointer reads (R56). -/
def effAddr (m : MemForm) (s : State) : Word × State :=
  match m with
  | .zp b => (zext16 b, s)
  | .zpx b => (zpIndexed s.params.zpIndexWrap b s.x, s)
  | .zpy b => (zpIndexed s.params.zpIndexWrap b s.y, s)
  | .abs w => (w, s)
  | .absx w => (w + zext16 s.x, s)
  | .absy w => (w + zext16 s.y, s)
  | .ind w => read16 w s
  | .izx b => readPointer (b + s.x) (ptrHi s.params.zpPtrWrap (b + s.x)) s
  | .izy b =>
    let r := readPointer b (if s.params.iySameByte then zext16 b else ptrHi s.params.zpPtrWrap b) s
    (r.1 + zext16 s.y, r.2)

/-- A resolved memory operand: the effective address, the byte read there, the state after. -/
structure MemOperand where
  ea : Word
  v : Byte
  st : State

/-- `Resolve` of a memory form (R56, R57): the effective address is read exactly once, whatever the instruction does with
the value. -/
def resolveMem (m : MemForm) (s : State) : MemOperand :=
  let e := effAddr m s
  let r := memRead e.1 e.2
  { ea := e.1, v := r.1, st := r.2 }

/-- What `Resolve` returns (R56): `none` marks an absent part. -/
structure Resolved where
  ea : Option Word
  v : Option Byte
  st : State

/-- `Resolve(mode)` (R56) for every form. -/
def resolve (f : Form) (s : State) : Resolved :=
  match f with
  | .imp => { ea := none, v := none, st := s }
  | .acc => { ea := none, v := some s.a, st := s }
  | .imm b => { ea := none, v := some b, st := s }
  | .rel d => { ea := none, v := some d, st := s }
  | .mem m => { ea := some (resolveMem m s).ea, v := some (resolveMem m s).v, st := (resolveMem m s).st }

/-- Run `f` on the value of a memory operand: the shape of every instruction that reads one. -/
def withValue (m : MemForm) (s : State) (f : Byte → State → State) : Host.Outcome State Fault Refusal :=
  .next (f (resolveMem m s).v (resolveMem m s).st)

/-- Store register `r` at the effective address; the value `Resolve` read there is discarded (R57). -/
def storeReg (r : Reg) (m : MemForm) (s : State) : Host.Outcome State Fault Refusal :=
  .next (memWrite (resolveMem m s).ea ((resolveMem m s).st.reg r) (resolveMem m s).st)

end Sys2Proof.Machine
end

