-- ==== Sys2Proof/Machine/Alu.lean ====
section
/-! DEFINITION. ALU operations, compares and BIT (42_alu.md R85-R95). Each operation is written once, on the operand value `v`
of `Resolve`; an addressing form adds only where `v` comes from. -/

namespace Sys2Proof.Machine

open Sys2Proof

/-- ORA (R87). -/
def oraA (v : Byte) (s : State) : State := load .a (s.a ||| v) s

/-- AND (R88). -/
def andA (v : Byte) (s : State) : State := load .a (s.a &&& v) s

/-- EOR (R89). -/
def eorA (v : Byte) (s : State) : State := load .a (s.a ^^^ v) s

/-- ADC (R90): C comes in only when P_ADC_CARRY_IN is set; C, V and D are neither written nor, for D, read. -/
def adcA (v : Byte) (s : State) : State :=
  load .a (s.a + v + bitAt (s.params.adcCarryIn && s.flags.c) 0) s

/-- SBC (R91): the borrow 1 - C goes in only when P_SBC_BORROW_IN is set. -/
def sbcA (v : Byte) (s : State) : State :=
  load .a (s.a - v - bitAt (s.params.sbcBorrowIn && !s.flags.c) 0) s

/-- `Compare(r, v)` (R86): no register or cell is written. -/
def compareReg (r : Reg) (v : Byte) (s : State) : State :=
  s.setFlags (s.flags.compare s.params.cmpNFromBit7 (s.reg r) v)

/-- BIT (R95). -/
def bitA (v : Byte) (s : State) : State := s.setFlags (s.flags.bitTest s.a v)

/-- ORA imm (R87). -/
def execOraImm (b : Byte) (s : State) : Host.Outcome State Fault Refusal :=
  .next (oraA b s)

/-- ORA zp (R87). -/
def execOraZp (b : Byte) (s : State) : Host.Outcome State Fault Refusal :=
  withValue (.zp b) s oraA

/-- ORA zpx (R87). -/
def execOraZpx (b : Byte) (s : State) : Host.Outcome State Fault Refusal :=
  withValue (.zpx b) s oraA

/-- ORA abs (R87). -/
def execOraAbs (w : Word) (s : State) : Host.Outcome State Fault Refusal :=
  withValue (.abs w) s oraA

/-- ORA absx (R87). -/
def execOraAbsx (w : Word) (s : State) : Host.Outcome State Fault Refusal :=
  withValue (.absx w) s oraA

/-- ORA absy (R87). -/
def execOraAbsy (w : Word) (s : State) : Host.Outcome State Fault Refusal :=
  withValue (.absy w) s oraA

/-- ORA izx (R87). -/
def execOraIzx (b : Byte) (s : State) : Host.Outcome State Fault Refusal :=
  withValue (.izx b) s oraA

/-- ORA izy (R87). -/
def execOraIzy (b : Byte) (s : State) : Host.Outcome State Fault Refusal :=
  withValue (.izy b) s oraA

/-- AND imm (R88). -/
def execAndImm (b : Byte) (s : State) : Host.Outcome State Fault Refusal :=
  .next (andA b s)

/-- AND zp (R88). -/
def execAndZp (b : Byte) (s : State) : Host.Outcome State Fault Refusal :=
  withValue (.zp b) s andA

/-- AND zpx (R88). -/
def execAndZpx (b : Byte) (s : State) : Host.Outcome State Fault Refusal :=
  withValue (.zpx b) s andA

/-- AND abs (R88). -/
def execAndAbs (w : Word) (s : State) : Host.Outcome State Fault Refusal :=
  withValue (.abs w) s andA

/-- AND absx (R88). -/
def execAndAbsx (w : Word) (s : State) : Host.Outcome State Fault Refusal :=
  withValue (.absx w) s andA

/-- AND absy (R88). -/
def execAndAbsy (w : Word) (s : State) : Host.Outcome State Fault Refusal :=
  withValue (.absy w) s andA

/-- AND izx (R88). -/
def execAndIzx (b : Byte) (s : State) : Host.Outcome State Fault Refusal :=
  withValue (.izx b) s andA

/-- AND izy (R88). -/
def execAndIzy (b : Byte) (s : State) : Host.Outcome State Fault Refusal :=
  withValue (.izy b) s andA

/-- EOR imm (R89). -/
def execEorImm (b : Byte) (s : State) : Host.Outcome State Fault Refusal :=
  .next (eorA b s)

/-- EOR zp (R89). -/
def execEorZp (b : Byte) (s : State) : Host.Outcome State Fault Refusal :=
  withValue (.zp b) s eorA

/-- EOR zpx (R89). -/
def execEorZpx (b : Byte) (s : State) : Host.Outcome State Fault Refusal :=
  withValue (.zpx b) s eorA

/-- EOR abs (R89). -/
def execEorAbs (w : Word) (s : State) : Host.Outcome State Fault Refusal :=
  withValue (.abs w) s eorA

/-- EOR absx (R89). -/
def execEorAbsx (w : Word) (s : State) : Host.Outcome State Fault Refusal :=
  withValue (.absx w) s eorA

/-- EOR absy (R89). -/
def execEorAbsy (w : Word) (s : State) : Host.Outcome State Fault Refusal :=
  withValue (.absy w) s eorA

/-- EOR izx (R89). -/
def execEorIzx (b : Byte) (s : State) : Host.Outcome State Fault Refusal :=
  withValue (.izx b) s eorA

/-- EOR izy (R89). -/
def execEorIzy (b : Byte) (s : State) : Host.Outcome State Fault Refusal :=
  withValue (.izy b) s eorA

/-- ADC imm (R90). -/
def execAdcImm (b : Byte) (s : State) : Host.Outcome State Fault Refusal :=
  .next (adcA b s)

/-- ADC zp (R90). -/
def execAdcZp (b : Byte) (s : State) : Host.Outcome State Fault Refusal :=
  withValue (.zp b) s adcA

/-- ADC zpx (R90). -/
def execAdcZpx (b : Byte) (s : State) : Host.Outcome State Fault Refusal :=
  withValue (.zpx b) s adcA

/-- ADC abs (R90). -/
def execAdcAbs (w : Word) (s : State) : Host.Outcome State Fault Refusal :=
  withValue (.abs w) s adcA

/-- ADC absx (R90). -/
def execAdcAbsx (w : Word) (s : State) : Host.Outcome State Fault Refusal :=
  withValue (.absx w) s adcA

/-- ADC absy (R90). -/
def execAdcAbsy (w : Word) (s : State) : Host.Outcome State Fault Refusal :=
  withValue (.absy w) s adcA

/-- ADC izx (R90). -/
def execAdcIzx (b : Byte) (s : State) : Host.Outcome State Fault Refusal :=
  withValue (.izx b) s adcA

/-- ADC izy (R90). -/
def execAdcIzy (b : Byte) (s : State) : Host.Outcome State Fault Refusal :=
  withValue (.izy b) s adcA

/-- SBC imm (R91). -/
def execSbcImm (b : Byte) (s : State) : Host.Outcome State Fault Refusal :=
  .next (sbcA b s)

/-- SBC zp (R91). -/
def execSbcZp (b : Byte) (s : State) : Host.Outcome State Fault Refusal :=
  withValue (.zp b) s sbcA

/-- SBC zpx (R91). -/
def execSbcZpx (b : Byte) (s : State) : Host.Outcome State Fault Refusal :=
  withValue (.zpx b) s sbcA

/-- SBC abs (R91). -/
def execSbcAbs (w : Word) (s : State) : Host.Outcome State Fault Refusal :=
  withValue (.abs w) s sbcA

/-- SBC absx (R91). -/
def execSbcAbsx (w : Word) (s : State) : Host.Outcome State Fault Refusal :=
  withValue (.absx w) s sbcA

/-- SBC absy (R91). -/
def execSbcAbsy (w : Word) (s : State) : Host.Outcome State Fault Refusal :=
  withValue (.absy w) s sbcA

/-- SBC izx (R91). -/
def execSbcIzx (b : Byte) (s : State) : Host.Outcome State Fault Refusal :=
  withValue (.izx b) s sbcA

/-- SBC izy (R91). -/
def execSbcIzy (b : Byte) (s : State) : Host.Outcome State Fault Refusal :=
  withValue (.izy b) s sbcA

/-- CMP imm (R92). -/
def execCmpImm (b : Byte) (s : State) : Host.Outcome State Fault Refusal :=
  .next (compareReg .a b s)

/-- CMP zp (R92). -/
def execCmpZp (b : Byte) (s : State) : Host.Outcome State Fault Refusal :=
  withValue (.zp b) s (compareReg .a)

/-- CMP zpx (R92). -/
def execCmpZpx (b : Byte) (s : State) : Host.Outcome State Fault Refusal :=
  withValue (.zpx b) s (compareReg .a)

/-- CMP abs (R92). -/
def execCmpAbs (w : Word) (s : State) : Host.Outcome State Fault Refusal :=
  withValue (.abs w) s (compareReg .a)

/-- CMP absx (R92). -/
def execCmpAbsx (w : Word) (s : State) : Host.Outcome State Fault Refusal :=
  withValue (.absx w) s (compareReg .a)

/-- CMP absy (R92). -/
def execCmpAbsy (w : Word) (s : State) : Host.Outcome State Fault Refusal :=
  withValue (.absy w) s (compareReg .a)

/-- CMP izx (R92). -/
def execCmpIzx (b : Byte) (s : State) : Host.Outcome State Fault Refusal :=
  withValue (.izx b) s (compareReg .a)

/-- CMP izy (R92). -/
def execCmpIzy (b : Byte) (s : State) : Host.Outcome State Fault Refusal :=
  withValue (.izy b) s (compareReg .a)

/-- CPX imm (R93). -/
def execCpxImm (b : Byte) (s : State) : Host.Outcome State Fault Refusal :=
  .next (compareReg .x b s)

/-- CPX zp (R93). -/
def execCpxZp (b : Byte) (s : State) : Host.Outcome State Fault Refusal :=
  withValue (.zp b) s (compareReg .x)

/-- CPX abs (R93). -/
def execCpxAbs (w : Word) (s : State) : Host.Outcome State Fault Refusal :=
  withValue (.abs w) s (compareReg .x)

/-- CPY imm (R94). -/
def execCpyImm (b : Byte) (s : State) : Host.Outcome State Fault Refusal :=
  .next (compareReg .y b s)

/-- CPY zp (R94). -/
def execCpyZp (b : Byte) (s : State) : Host.Outcome State Fault Refusal :=
  withValue (.zp b) s (compareReg .y)

/-- CPY abs (R94). -/
def execCpyAbs (w : Word) (s : State) : Host.Outcome State Fault Refusal :=
  withValue (.abs w) s (compareReg .y)

/-- BIT zp (R95). -/
def execBitZp (b : Byte) (s : State) : Host.Outcome State Fault Refusal :=
  withValue (.zp b) s bitA

/-- BIT abs (R95). -/
def execBitAbs (w : Word) (s : State) : Host.Outcome State Fault Refusal :=
  withValue (.abs w) s bitA

end Sys2Proof.Machine
end

