-- ==== Sys2Proof/Machine/Control.lean ====
section
/-! DEFINITION. Control transfer (44_control.md R107-R120), with the trap BRK and its return RTI, and the illegal opcodes
(60_exceptions.md R131). On entry PC is the address of the next instruction in sequence. -/

namespace Sys2Proof.Machine

open Sys2Proof

/-- `Branch(cond, d)` (R107). -/
def branch (cond : Bool) (d : Byte) (s : State) : Host.Outcome State Fault Refusal :=
  .next (if cond then s.setPc (s.pc + sext16 d) else s)

/-- `PC <- ea` (R116); `Resolve` has read the target and discarded the value. -/
def jump (m : MemForm) (s : State) : Host.Outcome State Fault Refusal :=
  .next ((resolveMem m s).st.setPc (resolveMem m s).ea)

/-- JSR's pushes, then `PC <- ea` (R117): a push that faults leaves PC unchanged. -/
def jumpToSub (a : Word) (m : MemForm) (s : State) : MayRaise State :=
  match pushWord a (resolveMem m s).st.pc (resolveMem m s).st with
  | .ok s1 => .ok (s1.setPc (resolveMem m s).ea)
  | .error e => .error e

/-- BPL rel (R108). -/
def execBpl (d : Byte) (s : State) : Host.Outcome State Fault Refusal :=
  branch (!s.flags.n) d s

/-- BMI rel (R109). -/
def execBmi (d : Byte) (s : State) : Host.Outcome State Fault Refusal :=
  branch s.flags.n d s

/-- BVC rel (R110). -/
def execBvc (d : Byte) (s : State) : Host.Outcome State Fault Refusal :=
  branch (!s.flags.v) d s

/-- BVS rel (R111). -/
def execBvs (d : Byte) (s : State) : Host.Outcome State Fault Refusal :=
  branch s.flags.v d s

/-- BCC rel (R112). -/
def execBcc (d : Byte) (s : State) : Host.Outcome State Fault Refusal :=
  branch (!s.flags.c) d s

/-- BCS rel (R113). -/
def execBcs (d : Byte) (s : State) : Host.Outcome State Fault Refusal :=
  branch s.flags.c d s

/-- BNE rel (R114). -/
def execBne (d : Byte) (s : State) : Host.Outcome State Fault Refusal :=
  branch (!s.flags.z) d s

/-- BEQ rel (R115). -/
def execBeq (d : Byte) (s : State) : Host.Outcome State Fault Refusal :=
  branch s.flags.z d s

/-- JMP abs (R116). -/
def execJmpAbs (w : Word) (s : State) : Host.Outcome State Fault Refusal :=
  jump (.abs w) s

/-- JMP ind (R116). -/
def execJmpInd (w : Word) (s : State) : Host.Outcome State Fault Refusal :=
  jump (.ind w) s

/-- JSR abs (R117). -/
def execJsrAbs (w : Word) (s : State) : Host.Outcome State Fault Refusal :=
  finish (jumpToSub (opcodeAddr (.jsrAbs w) s) (.abs w) s)

/-- RTS imp (R118). -/
def execRts (s : State) : Host.Outcome State Fault Refusal :=
  finish (returnFromSub (opcodeAddr .rts s) s)

/-- BRK imp (R119). -/
def execBrk (s : State) : Host.Outcome State Fault Refusal :=
  finish (takeBreak (opcodeAddr .brk s) s)

/-- RTI imp (R120). -/
def execRti (s : State) : Host.Outcome State Fault Refusal :=
  finish (returnFromBreak (opcodeAddr .rti s) s)

/-- An illegal opcode (60_exceptions.md R131): the fault UnimplementedOpcode is recorded, and nothing else changes. The opcode in
the record is IR (R132), which the fetch has set to `op`. -/
def execIllegal (op : Byte) (s : State) : Host.Outcome State Fault Refusal :=
  .next (raiseFault .unimplementedOpcode (opcodeAddr (.illegal op) s) s)

end Sys2Proof.Machine
end

