-- ==== Sys2Proof/Machine/FlagMisc.lean ====
section
/-! DEFINITION. Flag instructions, NOP and HLT (45_flag_misc.md R121-R129). -/

namespace Sys2Proof.Machine

open Sys2Proof

/-- The run state and BUS after HLT (R129). -/
def State.halt (s : State) : State := { s with halted := true, bus := 0xFF#8 }

/-- CLC imp (R121). -/
def execClc (s : State) : Host.Outcome State Fault Refusal :=
  .next (s.setFlags { s.flags with c := false })

/-- SEC imp (R122). -/
def execSec (s : State) : Host.Outcome State Fault Refusal :=
  .next (s.setFlags { s.flags with c := true })

/-- CLI imp (R123). -/
def execCli (s : State) : Host.Outcome State Fault Refusal :=
  .next (s.setFlags { s.flags with i := false })

/-- SEI imp (R124). -/
def execSei (s : State) : Host.Outcome State Fault Refusal :=
  .next (s.setFlags { s.flags with i := true })

/-- CLV imp (R125). -/
def execClv (s : State) : Host.Outcome State Fault Refusal :=
  .next (s.setFlags { s.flags with v := false })

/-- CLD imp (R126). -/
def execCld (s : State) : Host.Outcome State Fault Refusal :=
  .next (s.setFlags { s.flags with d := false })

/-- SED imp (R127). -/
def execSed (s : State) : Host.Outcome State Fault Refusal :=
  .next (s.setFlags { s.flags with d := true })

/-- NOP imp (R128). -/
def execNop (s : State) : Host.Outcome State Fault Refusal :=
  .next s

/-- HLT imp (R129). -/
def execHlt (s : State) : Host.Outcome State Fault Refusal :=
  .next s.halt

end Sys2Proof.Machine
end

