-- ==== Sys2Proof/Machine/IncDecShift.lean ====
section
/-! DEFINITION. Increments, decrements, shifts and rotates (43_incdec_shift.md R96-R106). -/

namespace Sys2Proof.Machine

open Sys2Proof

/-- Read-modify-write of the cell at the effective address, with N and Z from the result (R97, R98): one read, one write. -/
def modifyMem (g : Byte → Byte) (m : MemForm) (s : State) : Host.Outcome State Fault Refusal :=
  let o := resolveMem m s
  let r := g o.v
  .next ((memWrite o.ea r o.st).setFlags (o.st.flags.setNZ r))

/-- A shift or rotate: the result from the operand and the old C, and the new C from the operand. -/
structure Shift where
  result : Byte → Bool → Byte
  carry : Byte → Bool

/-- ASL (R103). -/
def asl : Shift := { result := fun x _ => aslResult x, carry := aslCarry }
/-- LSR (R104). -/
def lsr : Shift := { result := fun x _ => lsrResult x, carry := lsrCarry }
/-- ROL (R105). -/
def rol : Shift := { result := rolResult, carry := rolCarry }
/-- ROR (R106). -/
def ror : Shift := { result := rorResult, carry := rorCarry }

/-- The accumulator form of R96. -/
def shiftA (k : Shift) (s : State) : State :=
  let r := k.result s.a s.flags.c
  (s.setReg .a r).setFlags (s.flags.shifted (k.carry s.a) r)

/-- A shift or rotate of the cell that `Resolve` has read: one write, then C, N and Z (R96). -/
def shiftCell (k : Shift) (o : MemOperand) : State :=
  let r := k.result o.v o.st.flags.c
  (memWrite o.ea r o.st).setFlags (o.st.flags.shifted (k.carry o.v) r)

/-- The memory form of R96: the cell at the effective address, or, with P_ADDR0_SELECTS_ACC and address 0x0000, A. Either way
`Resolve` has read the address. -/
def shiftMem (k : Shift) (m : MemForm) (s : State) : Host.Outcome State Fault Refusal :=
  if s.params.addr0SelectsAcc = true ∧ (resolveMem m s).ea = 0x0000#16 then .next (shiftA k (resolveMem m s).st)
  else .next (shiftCell k (resolveMem m s))

/-- INC zp (R97). -/
def execIncZp (b : Byte) (s : State) : Host.Outcome State Fault Refusal :=
  modifyMem (fun v => v + 1#8) (.zp b) s

/-- INC zpx (R97). -/
def execIncZpx (b : Byte) (s : State) : Host.Outcome State Fault Refusal :=
  modifyMem (fun v => v + 1#8) (.zpx b) s

/-- INC abs (R97). -/
def execIncAbs (w : Word) (s : State) : Host.Outcome State Fault Refusal :=
  modifyMem (fun v => v + 1#8) (.abs w) s

/-- INC absx (R97). -/
def execIncAbsx (w : Word) (s : State) : Host.Outcome State Fault Refusal :=
  modifyMem (fun v => v + 1#8) (.absx w) s

/-- DEC zp (R98). -/
def execDecZp (b : Byte) (s : State) : Host.Outcome State Fault Refusal :=
  modifyMem (fun v => v - 1#8) (.zp b) s

/-- DEC zpx (R98). -/
def execDecZpx (b : Byte) (s : State) : Host.Outcome State Fault Refusal :=
  modifyMem (fun v => v - 1#8) (.zpx b) s

/-- DEC abs (R98). -/
def execDecAbs (w : Word) (s : State) : Host.Outcome State Fault Refusal :=
  modifyMem (fun v => v - 1#8) (.abs w) s

/-- DEC absx (R98). -/
def execDecAbsx (w : Word) (s : State) : Host.Outcome State Fault Refusal :=
  modifyMem (fun v => v - 1#8) (.absx w) s

/-- INX imp (R99). -/
def execInx (s : State) : Host.Outcome State Fault Refusal :=
  .next (load .x (s.x + 1#8) s)

/-- DEX imp (R100). -/
def execDex (s : State) : Host.Outcome State Fault Refusal :=
  .next (load .x (s.x - 1#8) s)

/-- INY imp (R101). -/
def execIny (s : State) : Host.Outcome State Fault Refusal :=
  .next (load .y (s.y + 1#8) s)

/-- DEY imp (R102). -/
def execDey (s : State) : Host.Outcome State Fault Refusal :=
  .next (load .y (s.y - 1#8) s)

/-- ASL acc (R103). -/
def execAslAcc (s : State) : Host.Outcome State Fault Refusal :=
  .next (shiftA asl s)

/-- ASL zp (R103). -/
def execAslZp (b : Byte) (s : State) : Host.Outcome State Fault Refusal :=
  shiftMem asl (.zp b) s

/-- ASL zpx (R103). -/
def execAslZpx (b : Byte) (s : State) : Host.Outcome State Fault Refusal :=
  shiftMem asl (.zpx b) s

/-- ASL abs (R103). -/
def execAslAbs (w : Word) (s : State) : Host.Outcome State Fault Refusal :=
  shiftMem asl (.abs w) s

/-- ASL absx (R103). -/
def execAslAbsx (w : Word) (s : State) : Host.Outcome State Fault Refusal :=
  shiftMem asl (.absx w) s

/-- LSR acc (R104). -/
def execLsrAcc (s : State) : Host.Outcome State Fault Refusal :=
  .next (shiftA lsr s)

/-- LSR zp (R104). -/
def execLsrZp (b : Byte) (s : State) : Host.Outcome State Fault Refusal :=
  shiftMem lsr (.zp b) s

/-- LSR zpx (R104). -/
def execLsrZpx (b : Byte) (s : State) : Host.Outcome State Fault Refusal :=
  shiftMem lsr (.zpx b) s

/-- LSR abs (R104). -/
def execLsrAbs (w : Word) (s : State) : Host.Outcome State Fault Refusal :=
  shiftMem lsr (.abs w) s

/-- LSR absx (R104). -/
def execLsrAbsx (w : Word) (s : State) : Host.Outcome State Fault Refusal :=
  shiftMem lsr (.absx w) s

/-- ROL acc (R105). -/
def execRolAcc (s : State) : Host.Outcome State Fault Refusal :=
  .next (shiftA rol s)

/-- ROL zp (R105). -/
def execRolZp (b : Byte) (s : State) : Host.Outcome State Fault Refusal :=
  shiftMem rol (.zp b) s

/-- ROL zpx (R105). -/
def execRolZpx (b : Byte) (s : State) : Host.Outcome State Fault Refusal :=
  shiftMem rol (.zpx b) s

/-- ROL abs (R105). -/
def execRolAbs (w : Word) (s : State) : Host.Outcome State Fault Refusal :=
  shiftMem rol (.abs w) s

/-- ROL absx (R105). -/
def execRolAbsx (w : Word) (s : State) : Host.Outcome State Fault Refusal :=
  shiftMem rol (.absx w) s

/-- ROR acc (R106). -/
def execRorAcc (s : State) : Host.Outcome State Fault Refusal :=
  .next (shiftA ror s)

/-- ROR zp (R106). -/
def execRorZp (b : Byte) (s : State) : Host.Outcome State Fault Refusal :=
  shiftMem ror (.zp b) s

/-- ROR zpx (R106). -/
def execRorZpx (b : Byte) (s : State) : Host.Outcome State Fault Refusal :=
  shiftMem ror (.zpx b) s

/-- ROR abs (R106). -/
def execRorAbs (w : Word) (s : State) : Host.Outcome State Fault Refusal :=
  shiftMem ror (.abs w) s

/-- ROR absx (R106). -/
def execRorAbsx (w : Word) (s : State) : Host.Outcome State Fault Refusal :=
  shiftMem ror (.absx w) s

end Sys2Proof.Machine
end

