-- ==== Sys2Proof/Machine/LoadStore.lean ====
section
/-! DEFINITION. Loads and stores (40_load_store.md R69-R74). -/

namespace Sys2Proof.Machine

open Sys2Proof

/-- LDA imm (R69). -/
def execLdaImm (b : Byte) (s : State) : Host.Outcome State Fault Refusal :=
  .next (load .a b s)

/-- LDA zp (R69). -/
def execLdaZp (b : Byte) (s : State) : Host.Outcome State Fault Refusal :=
  withValue (.zp b) s (load .a)

/-- LDA zpx (R69). -/
def execLdaZpx (b : Byte) (s : State) : Host.Outcome State Fault Refusal :=
  withValue (.zpx b) s (load .a)

/-- LDA abs (R69). -/
def execLdaAbs (w : Word) (s : State) : Host.Outcome State Fault Refusal :=
  withValue (.abs w) s (load .a)

/-- LDA absx (R69). -/
def execLdaAbsx (w : Word) (s : State) : Host.Outcome State Fault Refusal :=
  withValue (.absx w) s (load .a)

/-- LDA absy (R69). -/
def execLdaAbsy (w : Word) (s : State) : Host.Outcome State Fault Refusal :=
  withValue (.absy w) s (load .a)

/-- LDA izx (R69). -/
def execLdaIzx (b : Byte) (s : State) : Host.Outcome State Fault Refusal :=
  withValue (.izx b) s (load .a)

/-- LDA izy (R69). -/
def execLdaIzy (b : Byte) (s : State) : Host.Outcome State Fault Refusal :=
  withValue (.izy b) s (load .a)

/-- LDX imm (R70). -/
def execLdxImm (b : Byte) (s : State) : Host.Outcome State Fault Refusal :=
  .next (load .x b s)

/-- LDX zp (R70). -/
def execLdxZp (b : Byte) (s : State) : Host.Outcome State Fault Refusal :=
  withValue (.zp b) s (load .x)

/-- LDX zpy (R70). -/
def execLdxZpy (b : Byte) (s : State) : Host.Outcome State Fault Refusal :=
  withValue (.zpy b) s (load .x)

/-- LDX abs (R70). -/
def execLdxAbs (w : Word) (s : State) : Host.Outcome State Fault Refusal :=
  withValue (.abs w) s (load .x)

/-- LDX absy (R70). -/
def execLdxAbsy (w : Word) (s : State) : Host.Outcome State Fault Refusal :=
  withValue (.absy w) s (load .x)

/-- LDY imm (R71). -/
def execLdyImm (b : Byte) (s : State) : Host.Outcome State Fault Refusal :=
  .next (load .y b s)

/-- LDY zp (R71). -/
def execLdyZp (b : Byte) (s : State) : Host.Outcome State Fault Refusal :=
  withValue (.zp b) s (load .y)

/-- LDY zpx (R71). -/
def execLdyZpx (b : Byte) (s : State) : Host.Outcome State Fault Refusal :=
  withValue (.zpx b) s (load .y)

/-- LDY abs (R71). -/
def execLdyAbs (w : Word) (s : State) : Host.Outcome State Fault Refusal :=
  withValue (.abs w) s (load .y)

/-- LDY absx (R71). -/
def execLdyAbsx (w : Word) (s : State) : Host.Outcome State Fault Refusal :=
  withValue (.absx w) s (load .y)

/-- STA zp (R72). -/
def execStaZp (b : Byte) (s : State) : Host.Outcome State Fault Refusal :=
  storeReg .a (.zp b) s

/-- STA zpx (R72). -/
def execStaZpx (b : Byte) (s : State) : Host.Outcome State Fault Refusal :=
  storeReg .a (.zpx b) s

/-- STA abs (R72). -/
def execStaAbs (w : Word) (s : State) : Host.Outcome State Fault Refusal :=
  storeReg .a (.abs w) s

/-- STA absx (R72). -/
def execStaAbsx (w : Word) (s : State) : Host.Outcome State Fault Refusal :=
  storeReg .a (.absx w) s

/-- STA absy (R72). -/
def execStaAbsy (w : Word) (s : State) : Host.Outcome State Fault Refusal :=
  storeReg .a (.absy w) s

/-- STA izx (R72). -/
def execStaIzx (b : Byte) (s : State) : Host.Outcome State Fault Refusal :=
  storeReg .a (.izx b) s

/-- STA izy (R72). -/
def execStaIzy (b : Byte) (s : State) : Host.Outcome State Fault Refusal :=
  storeReg .a (.izy b) s

/-- STX zp (R73). -/
def execStxZp (b : Byte) (s : State) : Host.Outcome State Fault Refusal :=
  storeReg .x (.zp b) s

/-- STX zpy (R73). -/
def execStxZpy (b : Byte) (s : State) : Host.Outcome State Fault Refusal :=
  storeReg .x (.zpy b) s

/-- STX abs (R73). -/
def execStxAbs (w : Word) (s : State) : Host.Outcome State Fault Refusal :=
  storeReg .x (.abs w) s

/-- STY zp (R74). -/
def execStyZp (b : Byte) (s : State) : Host.Outcome State Fault Refusal :=
  storeReg .y (.zp b) s

/-- STY zpx (R74). -/
def execStyZpx (b : Byte) (s : State) : Host.Outcome State Fault Refusal :=
  storeReg .y (.zpx b) s

/-- STY abs (R74). -/
def execStyAbs (w : Word) (s : State) : Host.Outcome State Fault Refusal :=
  storeReg .y (.abs w) s

end Sys2Proof.Machine
end

