-- ==== Sys2Proof/Machine/TransferStack.lean ====
section
/-! DEFINITION. Register transfers and stack instructions (41_transfer_stack.md R75-R84). -/

namespace Sys2Proof.Machine

open Sys2Proof

/-- `Load(dst, src)`, the shape of R75 to R80. -/
def transfer (dst src : Reg) (s : State) : State := load dst (s.reg src) s

/-- `Load(A, Pop())` (R82). -/
def pullA (a : Word) (s : State) : MayRaise State :=
  match pop a s with
  | .ok r => .ok (load .a r.1 r.2)
  | .error e => .error e

/-- `Unpack(Pop())` (R84). -/
def pullFlags (a : Word) (s : State) : MayRaise State :=
  match pop a s with
  | .ok r => .ok (r.2.setFlags (Flags.unpack r.1))
  | .error e => .error e

/-- TAX imp (R75). -/
def execTax (s : State) : Host.Outcome State Fault Refusal :=
  .next (transfer .x .a s)

/-- TAY imp (R76). -/
def execTay (s : State) : Host.Outcome State Fault Refusal :=
  .next (transfer .y .a s)

/-- TXA imp (R77). -/
def execTxa (s : State) : Host.Outcome State Fault Refusal :=
  .next (transfer .a .x s)

/-- TYA imp (R78). -/
def execTya (s : State) : Host.Outcome State Fault Refusal :=
  .next (transfer .a .y s)

/-- TSX imp (R79). -/
def execTsx (s : State) : Host.Outcome State Fault Refusal :=
  .next (transfer .x .sp s)

/-- TXS imp (R80). -/
def execTxs (s : State) : Host.Outcome State Fault Refusal :=
  .next (transfer .sp .x s)

/-- PHA imp (R81). -/
def execPha (s : State) : Host.Outcome State Fault Refusal :=
  finish (push (opcodeAddr .pha s) s.a s)

/-- PLA imp (R82). -/
def execPla (s : State) : Host.Outcome State Fault Refusal :=
  finish (pullA (opcodeAddr .pla s) s)

/-- PHP imp (R83). -/
def execPhp (s : State) : Host.Outcome State Fault Refusal :=
  finish (push (opcodeAddr .php s) s.flags.pack s)

/-- PLP imp (R84). -/
def execPlp (s : State) : Host.Outcome State Fault Refusal :=
  finish (pullFlags (opcodeAddr .plp s) s)

end Sys2Proof.Machine
end

