-- ==== Sys2Proof/Machine/Step.lean ====
section
/-! DEFINITION. One step of the machine (70_reset_and_hazards.md R149), and how an instruction is placed where the next step
fetches it. -/

namespace Sys2Proof.Machine

open Sys2Proof

/-- `Step()` (R149): only when `halted` is false and no fault is recorded; otherwise no step is possible (U24). One whole
instruction: the fetches, then its execution. -/
def step (s : State) : Host.Outcome State Fault Refusal :=
  match stopped s with
  | some f => .fault f
  | none => exec (fetchInstr s).1 (fetchInstr s).2

/-- `s` with the instruction whose bits are `w` where the next step fetches: the loader's `map` (20_memory.md R45) of the
instruction's own bytes at PC, each in a new writable array, and the core running. Log 14. -/
def State.withFetchWord (s : State) (nbits w : Nat) : State :=
  { s with
    mem := placeBytes s.pc (instrBytes nbits w) s.mem
    halted := false
    fault := none }

end Sys2Proof.Machine
end

