-- ==== Sys2Proof/Machine/HostOps.lean ====
section
/-! DEFINITION. What the host does between runs (20_memory.md R41, R42, R45; 70_reset_and_hazards.md R146, R153). These are no
steps: no instruction calls them. Where 93_implementation_defined.md says `refuse` (U11, U12), they refuse. -/

namespace Sys2Proof.Machine

open Sys2Proof

/-- The core is running (70_reset_and_hazards.md R151). -/
def State.running (s : State) : Bool := (stopped s).isNone

/-- The memory of a launch: the default map (R44) with RAM_INIT's bytes from 0x0000 on; what the list leaves out is zero,
the default of RAM_INIT. -/
def Memory.launched (p : Params) (ramInit : List Byte) : Memory :=
  { Memory.constructed p with cells := setCells [] (cellOf 0 0) (ramInit.take 0xF700) }

/-- The machine a launch starts from, before its first reset. 10_state.md R19 gives the registers no value before it, so
those of `State.reset` stand here unread, and `halted` says that nothing runs yet. Log 16. -/
def State.launch (p : Params) (m : Memory) : State :=
  { State.reset with params := p, mem := m, halted := true }

/-- A range the address space has (U11). -/
def validRange (lo hi : Nat) : Bool := decide (lo ≤ hi ∧ hi ≤ 0xFFFF)

/-- `map([lo, hi], handlerPair)` (R41), refused while the core runs (R42). The pair of functions is the new handler's and stays
outside: what it answers is `Config.devRead`. -/
def hostMapDevice (lo hi : Nat) (s : State) : Host.Outcome State Fault Refusal :=
  if s.running then .refused .coreRunning
  else if validRange lo hi then .next (s.setMem (s.mem.bindDevice lo hi))
  else .refused .badRange

/-- `map([lo, hi], bytes, writable)` (R41), refused while the core runs (R42) and for an array shorter than its range. -/
def hostMapBytes (lo hi : Nat) (bytes : List Byte) (writable : Bool) (s : State) : Host.Outcome State Fault Refusal :=
  if s.running then .refused .coreRunning
  else if validRange lo hi then
    if bytes.length < hi + 1 - lo then .refused .shortArray
    else .next (s.setMem (s.mem.bindBytes lo hi bytes writable))
  else .refused .badRange

/-- The loader (R45): an image of n bytes at `base` is the map of `base` to `base + n - 1`. An empty image has no range. -/
def hostLoad (base : Nat) (image : List Byte) (writable : Bool) (s : State) : Host.Outcome State Fault Refusal :=
  match image with
  | [] => .refused .badRange
  | b :: rest => hostMapBytes base (base + rest.length) (b :: rest) writable s

/-- `reset()` up to its `run()` (R146), refused while the core runs. -/
def hostReset (s : State) : Host.Outcome State Fault Refusal :=
  if s.running then .refused .coreRunning else .next (resetSequence s)

end Sys2Proof.Machine
end

