-- ==== Sys2Proof/Safety.lean ====
section
/-! DEFINITION. What claims about runs are stated in: a run and how it ends (70_reset_and_hazards.md R151), a safe run
(60_exceptions.md R133: one that records no fault), and the invariant every step keeps. -/

namespace Sys2Proof.Machine

open Sys2Proof

/-- `t` is reached from `s` by whole steps. -/
inductive Reaches : State → State → Prop where
  | refl (s : State) : Reaches s s
  | step (s t u : State) : Reaches s t → Machine.step t = .next u → Reaches s u

/-- A run from `s` is safe when no state of it holds a fault record (R133: "a correct program is one whose runs record no
fault"). -/
def SafeFrom (s : State) : Prop := ∀ t, Reaches s t → t.fault = none

/-- `run()` for at most `k` steps (R151): it stops by itself when the core halts or faults. A run that ends in neither is a
real outcome, so it is not turned into one. -/
def runFor : Nat → State → State
  | 0, s => s
  | k + 1, s =>
    match Machine.step s with
    | .next t => runFor k t
    | .fault _ => s
    | .refused _ => s

/-! ## How claims speak of memory -/

/-- `m'` is what `m` becomes when byte `v` is written at `ea` (20_memory.md R39, R37): if `ea` is a writable store, every
address backed by its cell reads as `v` and every other address as before; if it is not, every address reads as before. -/
structure Memory.StoredAt (m m' : Memory) (ea : Word) (v : Byte) : Prop where
  map : m'.bindings = m.bindings
  stored : ∀ b, m.writtenCell ea ≠ none → m.backingCell b = m.writtenCell ea → m'.peek b = some v
  kept : ∀ b, m.writtenCell ea = none ∨ m.backingCell b ≠ m.writtenCell ea → m'.peek b = m.peek b

/-- What a device has seen after the byte `v` is written at `ea` (20_memory.md R39). -/
def logAfterWrite (s : State) (ea : Word) (v : Byte) : List DevAccess :=
  match s.mem.region ea with
  | .device h => .write h ea v :: s.devLog
  | .store _ _ _ => s.devLog
  | .unmapped => s.devLog

/-- `t` is `s` after one byte is written, and nothing else: no register, flag or record differs. -/
structure Wrote (s t : State) (ea : Word) (v : Byte) : Prop where
  memory : s.mem.StoredAt t.mem ea v
  device : t.devLog = logAfterWrite s ea v
  frame : t = { s with mem := t.mem, devLog := t.devLog }

/-- `t` is `s` after some reads: only what device handlers have seen and answered differs. -/
def AfterReads (s t : State) : Prop := t = { s with devLog := t.devLog, draws := t.draws }

/-- The opcodes that can raise a kind of fault (60_exceptions.md R130). -/
def FaultKind.raisedBy (k : FaultKind) (op : Byte) : Bool :=
  match k with
  | .unimplementedOpcode => isIllegalByte op
  | .stackOverflow => op = Instr.opcode .pha || op = Instr.opcode .php || op = (Instr.opcode (.jsrAbs 0)) || op = Instr.opcode .brk
  | .stackUnderflow => op = Instr.opcode .pla || op = Instr.opcode .plp || op = Instr.opcode .rts || op = Instr.opcode .rti

/-- The numeric code of a fault kind (60_exceptions.md R130). -/
def FaultKind.code : FaultKind → Nat
  | .unimplementedOpcode => 1
  | .stackOverflow => 2
  | .stackUnderflow => 3

/-- What holds of every state of a run, whatever the program. -/
structure State.Inv (s : State) : Prop where
  /-- memory keeps its canonical form -/
  memory : s.mem.wf
  /-- a halted core has driven BUS to 0xFF (10_state.md R32) and last fetched HLT (45_flag_misc.md R129) -/
  haltDrivesBus : s.halted = true → s.bus = 0xFF#8 ∧ s.ir = 0x02#8
  /-- a fault does not set `halted` (10_state.md R33) -/
  faultNotHalted : s.fault.isSome = true → s.halted = false
  /-- a fault record's opcode is IR (60_exceptions.md R132), and one of those that can raise its kind (R130) -/
  faultRecord : ∀ r, s.fault = some r → r.opcode = s.ir ∧ r.kind.raisedBy r.opcode = true

end Sys2Proof.Machine
end

