-- ==== Sys2Proof/Certificates/Slice0/Obligations.lean ====
section
/-! DEFINITION. The statements for the provers. Each docstring names the rule of spec/ it formalises. Numbers are written as
the spec writes them, in Nat or Int with `mod`, wherever the model computes with bit vectors. -/

open Sys2Proof Sys2Proof.Machine

/-! ## Words of the statements -/

/-- The rows of mnemonic `m` are exactly the (mode, opcode byte) pairs of `l` (the encoding line of an instruction rule). The
opcode numbers but 0xA9, 0x85 and 0x02 are supplied by the spec, "[from general knowledge, not in source]" (R60, D3; log 11), and
every statement with `EncodedAs` rests on them. -/
def Sys2Proof.EncodedAs (m : Mnemonic) (l : List (Mode × Byte)) : Prop :=
  (∀ i : Instr, i.mnemonic = m → (i.mode, i.opcode) ∈ l) ∧ ∀ p ∈ l, ∃ i : Instr, i.mnemonic = m ∧ (i.mode, i.opcode) = p

/-- N and Z from `v`, every other flag kept (10_state.md R29). -/
def Sys2Proof.nzOf (f : Flags) (v : Byte) : Flags := { f with n := decide (0x80 ≤ v.toNat), z := decide (v.toNat = 0) }

/-- The stack cell of an SP value (10_state.md R22). -/
def Sys2Proof.stackCell (sp : Byte) : Word := BitVec.ofNat 16 (0x0100 + sp.toNat)

/-- The 16-bit value hi : lo (00_scope.md R10). -/
def Sys2Proof.joined (hi lo : Byte) : Word := BitVec.ofNat 16 (hi.toNat * 256 + lo.toNat)

/-- A displacement byte read as two's complement (30_encoding.md R58). -/
def Sys2Proof.displacement (d : Byte) : Int := if 0x80 ≤ d.toNat then (d.toNat : Int) - 256 else d.toNat

/-- Every address is served by device `h`, so that every access is seen. -/
def Sys2Proof.AllDevice (s : State) (h : Nat) : Prop := ∀ a : Word, s.mem.region a = .device h

/-- An access without the byte it moved: true for a write, and the address. -/
def Sys2Proof.accessed : DevAccess → Bool × Word
  | .read _ a _ => (false, a)
  | .write _ a _ => (true, a)

/-- The fault record of a stack fault in the instruction of length `len` that PC is past (60_exceptions.md R132). -/
def Sys2Proof.recorded (k : FaultKind) (s : State) (len : Nat) : Option FaultRecord :=
  some { kind := k, opcode := s.ir, address := s.pc - BitVec.ofNat 16 len }

/-! ## Encoding -/

/-- 30_encoding.md R53, R60: no bit of an encoding is dropped, whatever bytes follow. -/
def Obligations.DecodeOfEncodeIsTheInstruction : Prop :=
  ∀ (i : Instr) (rest : List Byte), i.wellFormed = true → decode (encode i ++ rest) = .ok (i, rest)

/-- 30_encoding.md R53, R59: a decoded instruction is well formed and its encoding is the bytes that were read. -/
def Obligations.EncodeOfDecodeIsTheBytes : Prop :=
  ∀ (bs : List Byte) (i : Instr) (rest : List Byte),
    decode bs = .ok (i, rest) → i.wellFormed = true ∧ encode i ++ rest = bs

/-- Words written out from 30_encoding.md R60 and 95_test_vectors.md E1, one for each family and each mode. The last clause, that
a list which ends inside an instruction is refused, is the model's (log 22): the spec has no truncated decode. -/
def Obligations.WordsOfTheSpecDecode : Prop :=
  decode [0xA9, 0x05] = .ok (.ldaImm 0x05, []) ∧ decode [0x85, 0x00] = .ok (.staZp 0x00, []) ∧
  decode [0xB5, 0x10] = .ok (.ldaZpx 0x10, []) ∧ decode [0xB6, 0xF0] = .ok (.ldxZpy 0xF0, []) ∧
  decode [0x4C, 0x34, 0x12] = .ok (.jmpAbs 0x1234, []) ∧ decode [0xBD, 0xFF, 0xFF] = .ok (.ldaAbsx 0xFFFF, []) ∧
  decode [0xB9, 0x00, 0x02] = .ok (.ldaAbsy 0x0200, []) ∧ decode [0x6C, 0xFF, 0x10] = .ok (.jmpInd 0x10FF, []) ∧
  decode [0x81, 0x3E] = .ok (.staIzx 0x3E, []) ∧ decode [0x91, 0x50] = .ok (.staIzy 0x50, []) ∧
  decode [0xD0, 0xFB] = .ok (.bne 0xFB, []) ∧ decode [0x0A] = .ok (.aslAcc, []) ∧ decode [0xE8] = .ok (.inx, []) ∧
  decode [0x48, 0xE8] = .ok (.pha, [0xE8]) ∧ decode [0x24, 0x10] = .ok (.bitZp 0x10, []) ∧
  decode [0x38] = .ok (.sec, []) ∧ decode [0x02] = .ok (.hlt, []) ∧ decode [0x03, 0x10] = .ok (.illegal 0x03, [0x10]) ∧
  decode [0x8D, 0x00] = .error (.truncated 0x8D)

/-- 30_encoding.md R61: the decoder's illegal rows are the listed bytes, and there are 104 of them. -/
def Obligations.IllegalRowsAreTheListedBytes : Prop :=
  (∀ op b1 b2 : Byte, build op b1 b2 = .illegal op ↔ isIllegalByte op = true) ∧
  (allOpcodes.filter isIllegalByte).length = 104

/-- 30_encoding.md R59, R64: the opcode byte alone fixes mnemonic, mode and length, and is the instruction's opcode. -/
def Obligations.OpcodeByteFixesTheDescriptor : Prop :=
  ∀ op b1 b2 c1 c2 : Byte,
    (build op b1 b2).opcode = op ∧ (build op b1 b2).mnemonic = (build op c1 c2).mnemonic ∧
    (build op b1 b2).mode = (build op c1 c2).mode ∧ (build op b1 b2).length = 1 + operandCount op ∧
    (encode (build op b1 b2)).length = (build op b1 b2).length

/-- 30_encoding.md R68: assembling a mnemonic with an operand and decoding the bytes gives the same instruction; for `rel` the
operand value is the target, and the property is that of the displacements R67 admits. -/
def Obligations.AssembledInstructionDecodesToItself : Prop :=
  (∀ i : Instr, i.mnemonic ≠ .illegal → ∃ bs, assemble i.mnemonic i.form = .ok bs ∧ decode bs = .ok (i, [])) ∧
  ∀ (source target : Word) (e : Byte), branchByte source target = .ok e →
    -128 ≤ (target.toNat : Int) - source.toNat - 2 ∧ (target.toNat : Int) - source.toNat - 2 ≤ 127 ∧
    (target.toNat : Int) = source.toNat + 2 + displacement e

/-- 30_encoding.md R67: the displacement byte, and the refusal outside -128..127 (93_implementation_defined.md U19). -/
def Obligations.BranchByteIsTheReducedDisplacement : Prop :=
  ∀ source target : Word,
    let d : Int := (target.toNat : Int) - source.toNat - 2
    (-128 ≤ d ∧ d ≤ 127 → ∃ e, branchByte source target = .ok e ∧
      (e.toNat : Int) = (if d < 0 then d + 0x10000 else d) % 256 ∧ displacement e = d) ∧
    (¬(-128 ≤ d ∧ d ≤ 127) → branchByte source target = .error .branchOutOfRange)

/-- 30_encoding.md R58: the operand a row takes from the bytes after its opcode: an immediate and a zero-page byte as unsigned
values, a word low byte first, a displacement as two's complement. Only the displacement is sign-extended. -/
def Obligations.OperandBytesFormTheOperand : Prop :=
  ∀ (op b1 b2 : Byte) (s : State),
    (∀ v, (build op b1 b2).form = .imm v → v = b1 ∧ (resolve (.imm v) s).v = some b1) ∧
    (∀ b, (build op b1 b2).form ∈ [.mem (.zp b), .mem (.zpx b), .mem (.zpy b), .mem (.izx b), .mem (.izy b)] → b = b1) ∧
    (effAddr (.zp b1) s).1.toNat = b1.toNat ∧
    (∀ w, (build op b1 b2).form ∈ [.mem (.abs w), .mem (.absx w), .mem (.absy w), .mem (.ind w)] →
      w.toNat = b2.toNat * 256 + b1.toNat) ∧
    (∀ d, (build op b1 b2).form = .rel d → d = b1 ∧
      ∃ w : Word, (w.toNat : Int) = ((s.pc.toNat : Int) + (if b1.getLsbD 7 then (b1.toNat : Int) - 256 else b1.toNat)) % 65536 ∧
        branch true d s = .next { s with pc := w })

/-! ## The step -/

/-- 70_reset_and_hazards.md R148, R149: when the bytes at PC are those of a well-formed instruction, the step is its execution
on the state in which IR is its opcode and PC is past its bytes, wrapping at 0xFFFF (R150). BUS takes a free value there
(10_state.md R32). -/
def Obligations.StepRunsTheDecodedInstruction : Prop :=
  ∀ (s : State) (i : Instr), s.halted = false → s.fault = none → i.wellFormed = true →
    (∀ k, k < i.length → s.mem.peek (s.pc + BitVec.ofNat 16 k) = (encode i)[k]?) →
    step s = exec i { s with
      ir := i.opcode
      pc := s.pc + BitVec.ofNat 16 i.length
      bus := Config.busValue s.draws
      draws := s.draws + 1 }

/-- 70_reset_and_hazards.md R151 and 93_implementation_defined.md U24: no step is possible once the core is halted or holds a
fault record, and a running core always steps: no instruction stops the model. -/
def Obligations.StepStopsExactlyWhenNotRunning : Prop :=
  ∀ s : State,
    (s.halted = true → step s = .fault .halted) ∧
    (∀ r, s.halted = false → s.fault = some r → step s = .fault (.faulted r)) ∧
    (s.halted = false → s.fault = none → ∃ t, step s = .next t)

/-- 60_exceptions.md R130, R133, R140: every instruction, in every state, answers a next state (a raise records its fault there). -/
def Obligations.EveryInstructionCompletes : Prop :=
  ∀ (i : Instr) (s : State), ∃ t, exec i s = .next t

/-- 60_exceptions.md R131: an illegal opcode fetched at PC records UnimplementedOpcode with IR = the opcode and the opcode's
address; PC is past the opcode, no operand byte is read, and nothing else changes but what every opcode fetch changes in the model:
BUS takes a free value and `draws` counts it (log 4). That the fault is a next state is log 2. (A claim about a program may use only the record
of such a state: R133.) The second clause says the same of the execution part alone. -/
def Obligations.IllegalOpcodeRecordsItsFault : Prop :=
  (∀ (s : State) (op : Byte), s.halted = false → s.fault = none →
    (memRead s.pc s.drawBus).1 = op → isIllegalByte op = true →
    step s = .next { (memRead s.pc s.drawBus).2 with
      ir := op
      pc := s.pc + 1#16
      fault := some { kind := .unimplementedOpcode, opcode := op, address := s.pc } }) ∧
  ∀ (op : Byte) (s : State), exec (.illegal op) s = .next { s with fault := recorded .unimplementedOpcode s 1 }

/-! ## Reset -/

/-- 10_state.md R35 and 70_reset_and_hazards.md R146: the values reset leaves, PC from the RESET vector read low byte first, the
dummy read at the target; memory, the map and the parameters are not touched. The host may reset only a core that is not running
(log 16). That the device log survives a reset and holds its reads is the model's choice (log 6). -/
def Obligations.ResetLeavesTheListedValues : Prop :=
  ∀ s : State,
    let w := read16 0xFFFC#16 s
    let t := resetSequence s
    t.a = 0x00#8 ∧ t.x = 0x00#8 ∧ t.y = 0x00#8 ∧ t.sp = 0xFF#8 ∧ t.bus = 0x00#8 ∧ t.ir = 0x00#8 ∧
    (t.flags.n = false ∧ t.flags.v = false ∧ t.flags.b = false ∧ t.flags.d = false ∧ t.flags.i = false ∧
      t.flags.z = false ∧ t.flags.c = false) ∧ t.flags.pack = 0x20#8 ∧
    t.halted = false ∧ t.fault = none ∧ t.pc = w.1 ∧ t.mem = s.mem ∧ t.params = s.params ∧
    t.devLog = (memRead w.1 w.2).2.devLog ∧
    (s.halted = true ∨ s.fault ≠ none → hostReset s = .next t) ∧
    (s.halted = false → s.fault = none → hostReset s = .refused .coreRunning)

/-- 95_test_vectors.md E6, E9: a reset of the default machine gives the fixed state `State.reset`, whose PC is 0xFD00. -/
def Obligations.DefaultLaunchResetsToTheResetState : Prop :=
  resetSequence (State.launch Config.defaults (Memory.launched Config.defaults [])) = State.reset ∧ State.reset.pc = 0xFD00#16

/-! ## Memory -/

/-- 20_memory.md R44: the default map, what its cells hold, and which accept writes; unmapped memory reads as BRK's opcode. -/
def Obligations.DefaultMapAndContents : Prop :=
  ∀ (p : Params) (ramInit : List Byte) (a : Word),
    let m := Memory.launched p ramInit
    (a.toNat ≤ 0xF6FF → m.region a = .store 0 0 true ∧ m.peek a = some (ramInit[a.toNat]?.getD 0x00#8)) ∧
    (0xF700 ≤ a.toNat → a.toNat ≤ 0xFFF9 → m.region a = .unmapped ∧ m.peek a = some 0x00#8 ∧ m.writtenCell a = none) ∧
    (0xFFFA ≤ a.toNat → (m.writtenCell a ≠ none ↔ p.vectorsWritable = true) ∧
      m.peek a = some (if a.toNat = 0xFFFD then 0xFD#8 else 0x00#8)) ∧
    build 0x00#8 0 0 = .brk

/-- 20_memory.md R41 and 93_implementation_defined.md U11, U12: `map` binds every address of its range to a new array or a new
handler, one that no binding refers to, the last call winning, and
leaves every other address with its binding and its contents; a short array, lo > hi or a running core is refused. -/
def Obligations.MapReplacesExactlyItsRange : Prop :=
  ∀ (s : State) (lo hi : Nat) (bytes : List Byte) (w : Bool), s.mem.wf → s.running = false →
    (lo ≤ hi → hi ≤ 0xFFFF → hi + 1 - lo ≤ bytes.length →
      ∃ m id, hostMapBytes lo hi bytes w s = .next { s with mem := m } ∧ m.wf ∧
        (∀ b ∈ s.mem.bindings, ∀ base w', b.region ≠ .store id base w') ∧
        (∀ a : Word, lo ≤ a.toNat → a.toNat ≤ hi →
          m.region a = .store id lo w ∧ m.peek a = bytes[a.toNat - lo]? ∧ (m.writtenCell a ≠ none ↔ w = true)) ∧
        ∀ a : Word, a.toNat < lo ∨ hi < a.toNat → m.region a = s.mem.region a ∧ m.peek a = s.mem.peek a) ∧
    (lo ≤ hi → hi ≤ 0xFFFF →
      ∃ m h, hostMapDevice lo hi s = .next { s with mem := m } ∧ m.wf ∧
        (∀ b ∈ s.mem.bindings, b.region ≠ .device h) ∧
        (∀ a : Word, lo ≤ a.toNat → a.toNat ≤ hi → m.region a = .device h) ∧
        ∀ a : Word, a.toNat < lo ∨ hi < a.toNat → m.region a = s.mem.region a ∧ m.peek a = s.mem.peek a) ∧
    (lo ≤ hi → hi ≤ 0xFFFF → bytes.length < hi + 1 - lo → hostMapBytes lo hi bytes w s = .refused .shortArray) ∧
    (hi < lo → hostMapBytes lo hi bytes w s = .refused .badRange ∧ hostMapDevice lo hi s = .refused .badRange)

/-- 20_memory.md R38: a read answers the array's element, a draw of the device, or 0x00, and never fails. -/
def Obligations.ReadIsDispatchedByRegion : Prop :=
  ∀ (a : Word) (s : State),
    (∀ id base w, s.mem.region a = .store id base w →
      memRead a s = (getCell s.mem.cells (id * 0x10000 + (a.toNat - base)), s)) ∧
    (∀ h, s.mem.region a = .device h →
      memRead a s = (Config.devRead s.draws h a,
        { s with draws := s.draws + 1, devLog := .read h a (Config.devRead s.draws h a) :: s.devLog })) ∧
    (s.mem.region a = .unmapped → memRead a s = (0x00#8, s)) ∧
    (∀ v, s.mem.peek a = some v → memRead a s = (v, s))

/-- 20_memory.md R39, R37: a write to a writable store is read back through every address of its cell and leaves every other
address alone; a write elsewhere changes no byte, and a device records it. -/
def Obligations.WriteIsDispatchedByRegion : Prop :=
  ∀ (a : Word) (v : Byte) (s : State), s.mem.wf →
    Wrote s (memWrite a v s) a v ∧
    (∀ id base, s.mem.region a = .store id base true → memRead a (memWrite a v s) = (v, memWrite a v s)) ∧
    (∀ id base, s.mem.region a = .store id base false → memWrite a v s = s) ∧
    (∀ h, s.mem.region a = .device h → memWrite a v s = { s with devLog := .write h a v :: s.devLog }) ∧
    (s.mem.region a = .unmapped → memWrite a v s = s)

/-- 20_memory.md R40, R46: a word is two byte reads, low byte first, the second address modulo 65536. -/
def Obligations.WordReadIsTwoByteReads : Prop :=
  ∀ (a b : Word) (s : State), b.toNat = (a.toNat + 1) % 65536 →
    (read16 a s).1.toNat = (memRead b (memRead a s).2).1.toNat * 256 + (memRead a s).1.toNat ∧
    (read16 a s).2 = (memRead b (memRead a s).2).2

/-! ## Flags, registers, stack -/

/-- 10_state.md R27, R28: each flag's bit of the packed byte, bit 5 always 1, and the two laws of pack and unpack. -/
def Obligations.StatusBytePacksAndUnpacks : Prop :=
  (∀ f : Flags, f.pack.toNat = 128 * f.n.toNat + 64 * f.v.toNat + 32 + 16 * f.b.toNat + 8 * f.d.toNat + 4 * f.i.toNat +
    2 * f.z.toNat + f.c.toNat) ∧
  (∀ f : Flags, Flags.unpack f.pack = f) ∧ (∀ b : Byte, (Flags.unpack b).pack = b ||| 0x20#8)

/-- 10_state.md R29, R18: `Load` writes one register, and N and Z, and nothing else. -/
def Obligations.LoadSetsOneRegisterAndNZ : Prop :=
  ∀ (v : Byte) (s : State),
    load .a v s = { s with a := v, flags := nzOf s.flags v } ∧ load .x v s = { s with x := v, flags := nzOf s.flags v } ∧
    load .y v s = { s with y := v, flags := nzOf s.flags v } ∧ load .sp v s = { s with sp := v, flags := nzOf s.flags v }

/-- 10_state.md R22, R23: a push writes the cell SP names and moves SP down; at SP = 0x00 it writes nothing and records
StackOverflow with the instruction's opcode and address. -/
def Obligations.PushWritesThenMovesDown : Prop :=
  ∀ (a : Word) (v : Byte) (s : State), s.mem.wf →
    (s.sp = 0x00#8 → push a v s = .error { s with fault := some { kind := .stackOverflow, opcode := s.ir, address := a } }) ∧
    (s.sp ≠ 0x00#8 → ∃ u, Wrote s u (stackCell s.sp) v ∧ push a v s = .ok { u with sp := s.sp - 1#8 })

/-- 10_state.md R24: a pop moves SP up and reads; at SP = 0xFF it records StackUnderflow. A push that did not fault, into a writable
cell, followed by a pop gives the byte back and restores SP. -/
def Obligations.PopReadsAndUndoesPush : Prop :=
  (∀ (a : Word) (s : State),
    (s.sp = 0xFF#8 → pop a s = .error { s with fault := some { kind := .stackUnderflow, opcode := s.ir, address := a } }) ∧
    (s.sp ≠ 0xFF#8 → pop a s = .ok (memRead (stackCell (s.sp + 1#8)) { s with sp := s.sp + 1#8 }))) ∧
  ∀ (a b : Word) (v : Byte) (s t : State), s.mem.wf → s.mem.writtenCell (stackCell s.sp) ≠ none → push a v s = .ok t →
    pop b t = .ok (v, { t with sp := s.sp })

/-! ## The operand resolver -/

/-- 30_encoding.md R56: the effective address of the modes that read no pointer, in the spec's arithmetic. -/
def Obligations.DirectModesComputeTheirAddress : Prop :=
  ∀ (s : State) (b : Byte) (w : Word),
    ((effAddr (.zp b) s).1.toNat = b.toNat ∧ (effAddr (.zp b) s).2 = s) ∧
    ((effAddr (.zpx b) s).1.toNat = (if s.params.zpIndexWrap then (b.toNat + s.x.toNat) % 256 else b.toNat + s.x.toNat) ∧
      (effAddr (.zpx b) s).2 = s) ∧
    ((effAddr (.zpy b) s).1.toNat = (if s.params.zpIndexWrap then (b.toNat + s.y.toNat) % 256 else b.toNat + s.y.toNat) ∧
      (effAddr (.zpy b) s).2 = s) ∧
    ((effAddr (.abs w) s).1 = w ∧ (effAddr (.abs w) s).2 = s) ∧
    ((effAddr (.absx w) s).1.toNat = (w.toNat + s.x.toNat) % 65536 ∧ (effAddr (.absx w) s).2 = s) ∧
    ((effAddr (.absy w) s).1.toNat = (w.toNat + s.y.toNat) % 65536 ∧ (effAddr (.absy w) s).2 = s)

/-- 30_encoding.md R56: the effective address of the three pointer modes, where the pointer's cells are not device cells; with
P_IY_SAME_BYTE the address of (zp),Y is (M[p] * 257 + Y) mod 65536. -/
def Obligations.PointerModesComputeTheirAddress : Prop :=
  ∀ (s : State) (lo hi : Byte),
    (∀ w : Word, s.mem.peek w = some lo → s.mem.peek (BitVec.ofNat 16 ((w.toNat + 1) % 65536)) = some hi →
      effAddr (.ind w) s = (joined hi lo, s)) ∧
    (∀ b p : Byte, p.toNat = (b.toNat + s.x.toNat) % 256 → s.mem.peek (BitVec.ofNat 16 p.toNat) = some lo →
      s.mem.peek (BitVec.ofNat 16 (if s.params.zpPtrWrap then (p.toNat + 1) % 256 else p.toNat + 1)) = some hi →
      effAddr (.izx b) s = (joined hi lo, s)) ∧
    (∀ b : Byte, s.params.iySameByte = true → s.mem.peek (BitVec.ofNat 16 b.toNat) = some lo →
      (effAddr (.izy b) s).1.toNat = (lo.toNat * 257 + s.y.toNat) % 65536 ∧ (effAddr (.izy b) s).2 = s) ∧
    (∀ b : Byte, s.params.iySameByte = false → s.mem.peek (BitVec.ofNat 16 b.toNat) = some lo →
      s.mem.peek (BitVec.ofNat 16 (if s.params.zpPtrWrap then (b.toNat + 1) % 256 else b.toNat + 1)) = some hi →
      (effAddr (.izy b) s).1.toNat = (hi.toNat * 256 + lo.toNat + s.y.toNat) % 65536 ∧ (effAddr (.izy b) s).2 = s)

/-- 30_encoding.md R56, R57: `Resolve` of each form, with exactly one read of the effective address, and nothing changed by it but
what device handlers see. -/
def Obligations.ResolveReadsTheAddressOnce : Prop :=
  ∀ (s : State),
    (∀ m : MemForm, (resolve (.mem m) s).ea = some (effAddr m s).1 ∧
      (resolve (.mem m) s).v = some (memRead (effAddr m s).1 (effAddr m s).2).1 ∧
      (resolve (.mem m) s).st = (memRead (effAddr m s).1 (effAddr m s).2).2 ∧ AfterReads s (resolve (.mem m) s).st) ∧
    (∀ b : Byte, ((resolve (.imm b) s).ea = none ∧ (resolve (.imm b) s).v = some b ∧ (resolve (.imm b) s).st = s) ∧
      ((resolve (.rel b) s).ea = none ∧ (resolve (.rel b) s).v = some b ∧ (resolve (.rel b) s).st = s)) ∧
    ((resolve .acc s).ea = none ∧ (resolve .acc s).v = some s.a ∧ (resolve .acc s).st = s) ∧
    ((resolve .imp s).ea = none ∧ (resolve .imp s).v = none ∧ (resolve .imp s).st = s)

/-- 30_encoding.md R57: the accesses of the fetches and of `Resolve`, in order and no others, as a machine whose every address is a
device sees them (the log is newest first; that it records reads is log 6). First the opcode and operand bytes (10_state.md R21,
70_reset_and_hazards.md R149, R150): reads of the instruction's own addresses that answered its encoding, with PC past it and IR its
opcode, on which a running core executes it. Then, from any such state, what `Resolve` reads after the operand bytes. -/
def Obligations.ResolveMakesItsAccessesInOrder : Prop :=
  ∀ (s : State) (h : Nat), AllDevice s h →
    let f := fetchInstr s
    let seen := fun m => (resolve (.mem m) s).st.devLog.map accessed
    let before := s.devLog.map accessed
    let ea := fun m => (effAddr m s).1
    let hiAt := fun p : Byte => (BitVec.ofNat 16 (if s.params.zpPtrWrap then (p.toNat + 1) % 256 else p.toNat + 1) : Word)
    (f.2.devLog = ((encode f.1).mapIdx fun k b => DevAccess.read h (s.pc + BitVec.ofNat 16 k) b).reverse ++ s.devLog ∧
      f.1.wellFormed = true ∧ f.2.ir = f.1.opcode ∧ f.2.pc = s.pc + BitVec.ofNat 16 f.1.length ∧ f.2.mem = s.mem ∧
      (s.halted = false → s.fault = none → step s = exec f.1 f.2)) ∧
    ∀ (b : Byte) (w : Word),
      seen (.zp b) = (false, ea (.zp b)) :: before ∧ seen (.zpx b) = (false, ea (.zpx b)) :: before ∧
      seen (.zpy b) = (false, ea (.zpy b)) :: before ∧ seen (.abs w) = (false, ea (.abs w)) :: before ∧
      seen (.absx w) = (false, ea (.absx w)) :: before ∧ seen (.absy w) = (false, ea (.absy w)) :: before ∧
      seen (.ind w) = (false, ea (.ind w)) :: (false, w + 1#16) :: (false, w) :: before ∧
      seen (.izx b) = (false, ea (.izx b)) :: (false, hiAt (b + s.x)) :: (false, zext16 (b + s.x)) :: before ∧
      seen (.izy b) =
        (false, ea (.izy b)) :: (false, if s.params.iySameByte then zext16 b else hiAt b) :: (false, zext16 b) :: before

/-- 30_encoding.md R57: after `Resolve`, a store and a read-modify-write instruction write the effective address once and make no
other access; the loads, ALU operations, compares, BIT, JMP, branches, transfers, register and flag instructions make none. -/
def Obligations.ExecuteMakesOnlyItsAccesses : Prop :=
  ∀ (i : Instr) (s t : State) (h : Nat), AllDevice s h → s.params.addr0SelectsAcc = false → exec i s = .next t →
    let before := (resolve i.form s).st.devLog.map accessed
    (i.mnemonic ∈ [.sta, .stx, .sty] ∨ i.mode ≠ .acc ∧ i.mnemonic ∈ [.inc, .dec, .asl, .lsr, .rol, .ror] →
      ∃ ea, (resolve i.form s).ea = some ea ∧ t.devLog.map accessed = (true, ea) :: before) ∧
    (i.mode = .acc ∨ i.mnemonic ∈ [.lda, .ldx, .ldy, .ora, .and, .eor, .adc, .sbc, .cmp, .cpx, .cpy, .bit, .jmp, .bpl, .bmi, .bvc,
        .bvs, .bcc, .bcs, .bne, .beq, .tax, .tay, .txa, .tya, .tsx, .txs, .inx, .dex, .iny, .dey, .clc, .sec, .cli, .sei, .clv,
        .cld, .sed, .nop, .hlt, .illegal] →
      t.devLog.map accessed = before)

/-! ## Loads and stores (40_load_store.md) -/

/-- R69, R70, R71: the register takes the operand value, N and Z follow it; nothing else changes. -/
def Obligations.LoadsTakeTheOperandValue : Prop :=
  EncodedAs .lda [(.imm, 0xA9), (.zp, 0xA5), (.zpx, 0xB5), (.abs, 0xAD), (.absx, 0xBD), (.absy, 0xB9), (.izx, 0xA1), (.izy, 0xB1)] ∧
  EncodedAs .ldx [(.imm, 0xA2), (.zp, 0xA6), (.zpy, 0xB6), (.abs, 0xAE), (.absy, 0xBE)] ∧
  EncodedAs .ldy [(.imm, 0xA0), (.zp, 0xA4), (.zpx, 0xB4), (.abs, 0xAC), (.absx, 0xBC)] ∧
  ∀ (i : Instr) (s : State),
    let r := resolve i.form s
    (i.mnemonic = .lda → ∃ v, r.v = some v ∧
      exec i s = .next { s with a := v, flags := nzOf s.flags v, devLog := r.st.devLog, draws := r.st.draws }) ∧
    (i.mnemonic = .ldx → ∃ v, r.v = some v ∧
      exec i s = .next { s with x := v, flags := nzOf s.flags v, devLog := r.st.devLog, draws := r.st.draws }) ∧
    (i.mnemonic = .ldy → ∃ v, r.v = some v ∧
      exec i s = .next { s with y := v, flags := nzOf s.flags v, devLog := r.st.devLog, draws := r.st.draws })

/-- R72, R73, R74: the register is written at the effective address after `Resolve` has read it; no flag or register changes, and
no other byte of memory. -/
def Obligations.StoresWriteTheRegister : Prop :=
  EncodedAs .sta [(.zp, 0x85), (.zpx, 0x95), (.abs, 0x8D), (.absx, 0x9D), (.absy, 0x99), (.izx, 0x81), (.izy, 0x91)] ∧
  EncodedAs .stx [(.zp, 0x86), (.zpy, 0x96), (.abs, 0x8E)] ∧ EncodedAs .sty [(.zp, 0x84), (.zpx, 0x94), (.abs, 0x8C)] ∧
  ∀ (i : Instr) (s : State), s.mem.wf →
    let r := resolve i.form s
    AfterReads s r.st ∧
    (i.mnemonic = .sta → ∃ ea t, r.ea = some ea ∧ exec i s = .next t ∧ Wrote r.st t ea s.a) ∧
    (i.mnemonic = .stx → ∃ ea t, r.ea = some ea ∧ exec i s = .next t ∧ Wrote r.st t ea s.x) ∧
    (i.mnemonic = .sty → ∃ ea t, r.ea = some ea ∧ exec i s = .next t ∧ Wrote r.st t ea s.y)

/-! ## Transfers and stack instructions (41_transfer_stack.md) -/

/-- R75 to R80: the six transfers; TXS sets N and Z too (decision D20). -/
def Obligations.TransfersLoadTheSource : Prop :=
  EncodedAs .tax [(.imp, 0xAA)] ∧ EncodedAs .tay [(.imp, 0xA8)] ∧ EncodedAs .txa [(.imp, 0x8A)] ∧
  EncodedAs .tya [(.imp, 0x98)] ∧ EncodedAs .tsx [(.imp, 0xBA)] ∧ EncodedAs .txs [(.imp, 0x9A)] ∧
  ∀ s : State,
    exec .tax s = .next { s with x := s.a, flags := nzOf s.flags s.a } ∧
    exec .tay s = .next { s with y := s.a, flags := nzOf s.flags s.a } ∧
    exec .txa s = .next { s with a := s.x, flags := nzOf s.flags s.x } ∧
    exec .tya s = .next { s with a := s.y, flags := nzOf s.flags s.y } ∧
    exec .tsx s = .next { s with x := s.sp, flags := nzOf s.flags s.sp } ∧
    exec .txs s = .next { s with sp := s.x, flags := nzOf s.flags s.x }

/-- R81, R83: PHA pushes A and PHP the packed status byte; at SP = 0x00 both record StackOverflow and write nothing. -/
def Obligations.PushInstructionsPush : Prop :=
  EncodedAs .pha [(.imp, 0x48)] ∧ EncodedAs .php [(.imp, 0x08)] ∧
  ∀ s : State, s.mem.wf →
    (s.sp ≠ 0x00#8 →
      (∃ u, Wrote s u (stackCell s.sp) s.a ∧ exec .pha s = .next { u with sp := s.sp - 1#8 }) ∧
      (∃ u, Wrote s u (stackCell s.sp) s.flags.pack ∧ exec .php s = .next { u with sp := s.sp - 1#8 })) ∧
    (s.sp = 0x00#8 →
      exec .pha s = .next { s with fault := recorded .stackOverflow s 1 } ∧
      exec .php s = .next { s with fault := recorded .stackOverflow s 1 })

/-- R82, R84: PLA loads A from the pulled byte and PLP sets all seven flags from it, bit 5 ignored; at SP = 0xFF both record
StackUnderflow and change neither A nor a flag. -/
def Obligations.PullInstructionsPull : Prop :=
  EncodedAs .pla [(.imp, 0x68)] ∧ EncodedAs .plp [(.imp, 0x28)] ∧
  ∀ s : State,
    let r := memRead (stackCell (s.sp + 1#8)) s
    (s.sp ≠ 0xFF#8 →
      exec .pla s = .next { s with
        a := r.1, sp := s.sp + 1#8, flags := nzOf s.flags r.1, devLog := r.2.devLog, draws := r.2.draws } ∧
      exec .plp s = .next { s with
        sp := s.sp + 1#8, devLog := r.2.devLog, draws := r.2.draws
        flags :=
          { n := r.1.getLsbD 7, v := r.1.getLsbD 6, b := r.1.getLsbD 4, d := r.1.getLsbD 3, i := r.1.getLsbD 2
            z := r.1.getLsbD 1, c := r.1.getLsbD 0 } }) ∧
    (s.sp = 0xFF#8 →
      exec .pla s = .next { s with fault := recorded .stackUnderflow s 1 } ∧
      exec .plp s = .next { s with fault := recorded .stackUnderflow s 1 })

/-! ## The ALU (42_alu.md) -/

/-- R87, R88, R89: the logic operations combine A with the operand and load A; C, V and the rest are kept. -/
def Obligations.LogicOperationsLoadA : Prop :=
  EncodedAs .ora [(.imm, 0x09), (.zp, 0x05), (.zpx, 0x15), (.abs, 0x0D), (.absx, 0x1D), (.absy, 0x19), (.izx, 0x01), (.izy, 0x11)] ∧
  EncodedAs .and [(.imm, 0x29), (.zp, 0x25), (.zpx, 0x35), (.abs, 0x2D), (.absx, 0x3D), (.absy, 0x39), (.izx, 0x21), (.izy, 0x31)] ∧
  EncodedAs .eor [(.imm, 0x49), (.zp, 0x45), (.zpx, 0x55), (.abs, 0x4D), (.absx, 0x5D), (.absy, 0x59), (.izx, 0x41), (.izy, 0x51)] ∧
  ∀ (i : Instr) (s : State),
    let r := resolve i.form s
    (i.mnemonic = .ora → ∃ v w, r.v = some v ∧ (∀ k, w.getLsbD k = (s.a.getLsbD k || v.getLsbD k)) ∧
      exec i s = .next { s with a := w, flags := nzOf s.flags w, devLog := r.st.devLog, draws := r.st.draws }) ∧
    (i.mnemonic = .and → ∃ v w, r.v = some v ∧ (∀ k, w.getLsbD k = (s.a.getLsbD k && v.getLsbD k)) ∧
      exec i s = .next { s with a := w, flags := nzOf s.flags w, devLog := r.st.devLog, draws := r.st.draws }) ∧
    (i.mnemonic = .eor → ∃ v w, r.v = some v ∧ (∀ k, w.getLsbD k = (s.a.getLsbD k ^^ v.getLsbD k)) ∧
      exec i s = .next { s with a := w, flags := nzOf s.flags w, devLog := r.st.devLog, draws := r.st.draws })

/-- R90, R91: ADC and SBC modulo 256, with the carry or borrow only under its parameter; N and Z only, C, V and D kept. -/
def Obligations.AddAndSubtractWrapWithoutCarry : Prop :=
  EncodedAs .adc [(.imm, 0x69), (.zp, 0x65), (.zpx, 0x75), (.abs, 0x6D), (.absx, 0x7D), (.absy, 0x79), (.izx, 0x61), (.izy, 0x71)] ∧
  EncodedAs .sbc [(.imm, 0xE9), (.zp, 0xE5), (.zpx, 0xF5), (.abs, 0xED), (.absx, 0xFD), (.absy, 0xF9), (.izx, 0xE1), (.izy, 0xF1)] ∧
  ∀ (i : Instr) (s : State),
    let r := resolve i.form s
    let cin : Nat := if s.params.adcCarryIn then s.flags.c.toNat else 0
    let bin : Nat := if s.params.sbcBorrowIn then 1 - s.flags.c.toNat else 0
    (i.mnemonic = .adc → ∃ v w, r.v = some v ∧ w.toNat = (s.a.toNat + v.toNat + cin) % 256 ∧
      exec i s = .next { s with a := w, flags := nzOf s.flags w, devLog := r.st.devLog, draws := r.st.draws }) ∧
    (i.mnemonic = .sbc → ∃ v w, r.v = some v ∧ (w.toNat : Int) = ((s.a.toNat : Int) - v.toNat - bin) % 256 ∧
      exec i s = .next { s with a := w, flags := nzOf s.flags w, devLog := r.st.devLog, draws := r.st.draws })

/-- R86, R92, R93, R94: the compares set N, Z and C from the exact difference, and write no register and no other flag. -/
def Obligations.ComparesUseTheExactDifference : Prop :=
  EncodedAs .cmp [(.imm, 0xC9), (.zp, 0xC5), (.zpx, 0xD5), (.abs, 0xCD), (.absx, 0xDD), (.absy, 0xD9), (.izx, 0xC1), (.izy, 0xD1)] ∧
  EncodedAs .cpx [(.imm, 0xE0), (.zp, 0xE4), (.abs, 0xEC)] ∧ EncodedAs .cpy [(.imm, 0xC0), (.zp, 0xC4), (.abs, 0xCC)] ∧
  ∀ (i : Instr) (s : State) (q : Byte),
    i.mnemonic = .cmp ∧ q = s.a ∨ i.mnemonic = .cpx ∧ q = s.x ∨ i.mnemonic = .cpy ∧ q = s.y →
    let r := resolve i.form s
    ∃ v, r.v = some v ∧
      let d : Int := (q.toNat : Int) - v.toNat
      exec i s = .next { s with
        flags := { s.flags with
          n := if s.params.cmpNFromBit7 then decide (128 ≤ d % 256) else decide (d < 0)
          z := decide (d = 0)
          c := decide (0 ≤ d) }
        devLog := r.st.devLog
        draws := r.st.draws }

/-- R95: BIT takes N and V from the memory byte and Z from `A & v`. -/
def Obligations.BitTestSetsNVZ : Prop :=
  EncodedAs .bit [(.zp, 0x24), (.abs, 0x2C)] ∧
  ∀ (i : Instr) (s : State), i.mnemonic = .bit →
    let r := resolve i.form s
    ∃ v, r.v = some v ∧
      exec i s = .next { s with
        flags := { s.flags with n := v.getLsbD 7, v := v.getLsbD 6, z := decide (s.a &&& v = 0#8) }
        devLog := r.st.devLog
        draws := r.st.draws }

/-! ## Increments and shifts (43_incdec_shift.md) -/

/-- R97, R98: INC and DEC write the cell once with the wrapped result, and N and Z follow it even where the write is dropped. -/
def Obligations.IncrementsModifyMemory : Prop :=
  EncodedAs .inc [(.zp, 0xE6), (.zpx, 0xF6), (.abs, 0xEE), (.absx, 0xFE)] ∧
  EncodedAs .dec [(.zp, 0xC6), (.zpx, 0xD6), (.abs, 0xCE), (.absx, 0xDE)] ∧
  ∀ (i : Instr) (s : State), s.mem.wf →
    let r := resolve i.form s
    AfterReads s r.st ∧
    (i.mnemonic = .inc → ∃ ea v w u, r.ea = some ea ∧ r.v = some v ∧ w.toNat = (v.toNat + 1) % 256 ∧
      Wrote r.st u ea w ∧ exec i s = .next { u with flags := nzOf s.flags w }) ∧
    (i.mnemonic = .dec → ∃ ea v w u, r.ea = some ea ∧ r.v = some v ∧ w.toNat = (v.toNat + 255) % 256 ∧
      Wrote r.st u ea w ∧ exec i s = .next { u with flags := nzOf s.flags w })

/-- R99 to R102: INX, DEX, INY, DEY wrap, and N and Z follow. -/
def Obligations.IndexRegistersCountAndWrap : Prop :=
  EncodedAs .inx [(.imp, 0xE8)] ∧ EncodedAs .dex [(.imp, 0xCA)] ∧ EncodedAs .iny [(.imp, 0xC8)] ∧ EncodedAs .dey [(.imp, 0x88)] ∧
  ∀ s : State,
    (∃ w : Byte, w.toNat = (s.x.toNat + 1) % 256 ∧ exec .inx s = .next { s with x := w, flags := nzOf s.flags w }) ∧
    (∃ w : Byte, w.toNat = (s.x.toNat + 255) % 256 ∧ exec .dex s = .next { s with x := w, flags := nzOf s.flags w }) ∧
    (∃ w : Byte, w.toNat = (s.y.toNat + 1) % 256 ∧ exec .iny s = .next { s with y := w, flags := nzOf s.flags w }) ∧
    (∃ w : Byte, w.toNat = (s.y.toNat + 255) % 256 ∧ exec .dey s = .next { s with y := w, flags := nzOf s.flags w })

/-- The result of a shift or rotate of `x` with the old carry `c`, as a number (R103 to R106). -/
def Sys2Proof.shiftedNumber (m : Mnemonic) (x c : Nat) : Nat :=
  if m = .asl then 2 * x % 256 else if m = .lsr then x / 2 else if m = .rol then (2 * x + c) % 256 else x / 2 + 128 * c

/-- The carry a shift or rotate of `x` sets (R103 to R106): the bit that leaves the byte. -/
def Sys2Proof.shiftedCarry (m : Mnemonic) (x : Nat) : Bool :=
  if m = .asl ∨ m = .rol then decide (128 ≤ x) else decide (x % 2 = 1)

/-- R96, R103 to R106: a shift acts on A in the accumulator form, and, under P_ADDR0_SELECTS_ACC, in a memory form at address
0x0000; else on the cell. C, N and Z follow; nothing else changes. -/
def Obligations.ShiftsMoveTheirBits : Prop :=
  EncodedAs .asl [(.acc, 0x0A), (.zp, 0x06), (.zpx, 0x16), (.abs, 0x0E), (.absx, 0x1E)] ∧
  EncodedAs .lsr [(.acc, 0x4A), (.zp, 0x46), (.zpx, 0x56), (.abs, 0x4E), (.absx, 0x5E)] ∧
  EncodedAs .rol [(.acc, 0x2A), (.zp, 0x26), (.zpx, 0x36), (.abs, 0x2E), (.absx, 0x3E)] ∧
  EncodedAs .ror [(.acc, 0x6A), (.zp, 0x66), (.zpx, 0x76), (.abs, 0x6E), (.absx, 0x7E)] ∧
  ∀ (i : Instr) (s : State), s.mem.wf → i.mnemonic ∈ [.asl, .lsr, .rol, .ror] →
    let r := resolve i.form s
    AfterReads s r.st ∧
    (i.mode = .acc ∨ s.params.addr0SelectsAcc = true ∧ r.ea = some 0x0000#16 →
      ∃ w : Byte, w.toNat = shiftedNumber i.mnemonic s.a.toNat s.flags.c.toNat ∧
        exec i s = .next { s with
          a := w, devLog := r.st.devLog, draws := r.st.draws
          flags := nzOf { s.flags with c := shiftedCarry i.mnemonic s.a.toNat } w }) ∧
    (i.mode ≠ .acc → ¬(s.params.addr0SelectsAcc = true ∧ r.ea = some 0x0000#16) →
      ∃ ea v w u, r.ea = some ea ∧ r.v = some v ∧ w.toNat = shiftedNumber i.mnemonic v.toNat s.flags.c.toNat ∧
        Wrote r.st u ea w ∧
        exec i s = .next { u with flags := nzOf { s.flags with c := shiftedCarry i.mnemonic v.toNat } w })

/-! ## Control transfer (44_control.md) -/

/-- When a branch is taken (R108 to R115). -/
def Sys2Proof.branchHolds (m : Mnemonic) (f : Flags) : Bool :=
  if m = .bpl then !f.n else if m = .bmi then f.n else if m = .bvc then !f.v else if m = .bvs then f.v
  else if m = .bcc then !f.c else if m = .bcs then f.c else if m = .bne then !f.z else f.z

/-- R107 to R115: a branch whose condition holds adds its displacement, read as two's complement, to PC modulo 65536; otherwise, and
apart from PC, nothing changes. -/
def Obligations.BranchesAddTheirDisplacement : Prop :=
  EncodedAs .bpl [(.rel, 0x10)] ∧ EncodedAs .bmi [(.rel, 0x30)] ∧ EncodedAs .bvc [(.rel, 0x50)] ∧ EncodedAs .bvs [(.rel, 0x70)] ∧
  EncodedAs .bcc [(.rel, 0x90)] ∧ EncodedAs .bcs [(.rel, 0xB0)] ∧ EncodedAs .bne [(.rel, 0xD0)] ∧ EncodedAs .beq [(.rel, 0xF0)] ∧
  ∀ (i : Instr) (s : State), i.mnemonic ∈ [.bpl, .bmi, .bvc, .bvs, .bcc, .bcs, .bne, .beq] →
    ∃ (d : Byte) (w : Word), i.form = .rel d ∧ (w.toNat : Int) = ((s.pc.toNat : Int) + displacement d) % 65536 ∧
      exec i s = .next (if branchHolds i.mnemonic s.flags then { s with pc := w } else s)

/-- R116: JMP sets PC to the effective address, which `Resolve` has read; nothing else changes. -/
def Obligations.JumpSetsPc : Prop :=
  EncodedAs .jmp [(.abs, 0x4C), (.ind, 0x6C)] ∧
  ∀ (i : Instr) (s : State), i.mnemonic = .jmp →
    let r := resolve i.form s
    ∃ ea, r.ea = some ea ∧ exec i s = .next { s with pc := ea, devLog := r.st.devLog, draws := r.st.draws }

/-- R117: JSR pushes PC, high byte first, and jumps; a push at SP = 0x00 records StackOverflow and leaves PC, the first push staying
done when only the second faults. -/
def Obligations.JumpToSubroutinePushesPc : Prop :=
  EncodedAs .jsr [(.abs, 0x20)] ∧
  ∀ (w : Word) (s : State), s.mem.wf →
    let r := resolve (.mem (.abs w)) s
    AfterReads s r.st ∧
    (2 ≤ s.sp.toNat → ∃ u1 u2, Wrote r.st u1 (stackCell s.sp) (hiByte s.pc) ∧
      Wrote { u1 with sp := s.sp - 1#8 } u2 (stackCell (s.sp - 1#8)) (loByte s.pc) ∧
      exec (.jsrAbs w) s = .next { u2 with sp := s.sp - 2#8, pc := w }) ∧
    (s.sp.toNat = 1 → ∃ u1, Wrote r.st u1 (stackCell s.sp) (hiByte s.pc) ∧
      exec (.jsrAbs w) s = .next { u1 with sp := 0x00#8, fault := recorded .stackOverflow s 3 }) ∧
    (s.sp.toNat = 0 → exec (.jsrAbs w) s = .next { r.st with fault := recorded .stackOverflow s 3 })

/-- R118: RTS pulls PC, low byte first, and adds nothing; a pop at SP = 0xFF records StackUnderflow. -/
def Obligations.ReturnFromSubroutinePullsPc : Prop :=
  EncodedAs .rts [(.imp, 0x60)] ∧
  ∀ s : State,
    let lo := memRead (stackCell (s.sp + 1#8)) { s with sp := s.sp + 1#8 }
    let hi := memRead (stackCell (s.sp + 2#8)) { lo.2 with sp := s.sp + 2#8 }
    (s.sp.toNat ≤ 0xFD → exec .rts s = .next { s with
      pc := joined hi.1 lo.1, sp := s.sp + 2#8, devLog := hi.2.devLog, draws := hi.2.draws }) ∧
    (s.sp.toNat = 0xFE → exec .rts s = .next { s with
      sp := 0xFF#8, devLog := lo.2.devLog, draws := lo.2.draws, fault := recorded .stackUnderflow s 1 }) ∧
    (s.sp.toNat = 0xFF → exec .rts s = .next { s with fault := recorded .stackUnderflow s 1 })

/-- R119, 60_exceptions.md R136: BRK pushes PC, high byte first, takes PC from the word at 0xFFFE, and sets B and I; no status byte is
pushed. A push at SP = 0x00 records StackOverflow. -/
def Obligations.BreakTakesTheTrap : Prop :=
  EncodedAs .brk [(.imp, 0x00)] ∧
  ∀ s : State, s.mem.wf →
    (2 ≤ s.sp.toNat → ∃ u1 u2, Wrote s u1 (stackCell s.sp) (hiByte s.pc) ∧
      Wrote { u1 with sp := s.sp - 1#8 } u2 (stackCell (s.sp - 1#8)) (loByte s.pc) ∧
      let v := read16 0xFFFE#16 { u2 with sp := s.sp - 2#8 }
      exec .brk s = .next { u2 with
        sp := s.sp - 2#8, pc := v.1, flags := { s.flags with b := true, i := true }, devLog := v.2.devLog, draws := v.2.draws }) ∧
    (s.sp.toNat = 1 → ∃ u1, Wrote s u1 (stackCell s.sp) (hiByte s.pc) ∧
      exec .brk s = .next { u1 with sp := 0x00#8, fault := recorded .stackOverflow s 1 }) ∧
    (s.sp.toNat = 0 → exec .brk s = .next { s with fault := recorded .stackOverflow s 1 })

/-- R120, 60_exceptions.md R137: RTI clears B and I, then pulls PC as RTS does; N, V, D, Z and C are kept. -/
def Obligations.ReturnFromBreakClearsBAndI : Prop :=
  EncodedAs .rti [(.imp, 0x40)] ∧
  ∀ s : State,
    let f : Flags := { s.flags with b := false, i := false }
    let lo := memRead (stackCell (s.sp + 1#8)) { s with sp := s.sp + 1#8 }
    let hi := memRead (stackCell (s.sp + 2#8)) { lo.2 with sp := s.sp + 2#8 }
    (s.sp.toNat ≤ 0xFD → exec .rti s = .next { s with
      pc := joined hi.1 lo.1, sp := s.sp + 2#8, flags := f, devLog := hi.2.devLog, draws := hi.2.draws }) ∧
    (s.sp.toNat = 0xFE → exec .rti s = .next { s with
      sp := 0xFF#8, flags := f, devLog := lo.2.devLog, draws := lo.2.draws, fault := recorded .stackUnderflow s 1 }) ∧
    (s.sp.toNat = 0xFF → exec .rti s = .next { s with flags := f, fault := recorded .stackUnderflow s 1 })

/-- The two stack cells a two-byte push uses are writable and are two cells. -/
def Sys2Proof.StackPairWritable (s : State) : Prop :=
  s.mem.writtenCell (stackCell s.sp) ≠ none ∧ s.mem.writtenCell (stackCell (s.sp - 1#8)) ≠ none ∧
  s.mem.writtenCell (stackCell s.sp) ≠ s.mem.writtenCell (stackCell (s.sp - 1#8))

/-- R118, R137, 10_state.md R25: RTS after JSR returns to the address after the JSR, RTI after BRK to the address after the BRK with B
and I clear, and SP is what it was, where the two stack cells are writable. -/
def Obligations.ReturnsUndoTheirCalls : Prop :=
  ∀ (w : Word) (s t : State), s.mem.wf → 2 ≤ s.sp.toNat → StackPairWritable s →
    (exec (.jsrAbs w) s = .next t → t.pc = w ∧ ∃ u, exec .rts t = .next u ∧ u.pc = s.pc ∧ u.sp = s.sp ∧ u.flags = s.flags) ∧
    (exec .brk s = .next t → t.flags.b = true ∧ t.flags.i = true ∧
      ∃ u, exec .rti t = .next u ∧ u.pc = s.pc ∧ u.sp = s.sp ∧ u.flags = { s.flags with b := false, i := false })

/-! ## Flags, NOP, HLT (45_flag_misc.md) -/

/-- R121 to R127: each flag instruction writes its one flag and nothing else. -/
def Obligations.FlagInstructionsWriteOneFlag : Prop :=
  EncodedAs .clc [(.imp, 0x18)] ∧ EncodedAs .sec [(.imp, 0x38)] ∧ EncodedAs .cli [(.imp, 0x58)] ∧ EncodedAs .sei [(.imp, 0x78)] ∧
  EncodedAs .clv [(.imp, 0xB8)] ∧ EncodedAs .cld [(.imp, 0xD8)] ∧ EncodedAs .sed [(.imp, 0xF8)] ∧
  ∀ s : State,
    exec .clc s = .next { s with flags := { s.flags with c := false } } ∧
    exec .sec s = .next { s with flags := { s.flags with c := true } } ∧
    exec .cli s = .next { s with flags := { s.flags with i := false } } ∧
    exec .sei s = .next { s with flags := { s.flags with i := true } } ∧
    exec .clv s = .next { s with flags := { s.flags with v := false } } ∧
    exec .cld s = .next { s with flags := { s.flags with d := false } } ∧
    exec .sed s = .next { s with flags := { s.flags with d := true } }

/-- R128: NOP does nothing. -/
def Obligations.NopChangesNothing : Prop :=
  EncodedAs .nop [(.imp, 0xEA)] ∧ ∀ s : State, exec .nop s = .next s

/-- R129: HLT sets `halted`, drives BUS to 0xFF and changes nothing else; from then on no step is possible. -/
def Obligations.HaltStopsTheCore : Prop :=
  EncodedAs .hlt [(.imp, 0x02)] ∧
  ∀ s : State, exec .hlt s = .next { s with halted := true, bus := 0xFF#8 } ∧
    ∀ t, exec .hlt s = .next t → step t = .fault .halted

/-! ## Rules over all instructions -/

/-- 10_state.md R30: the instructions that may change each flag; every other instruction keeps it. -/
def Obligations.OnlyListedInstructionsWriteAFlag : Prop :=
  ∀ (i : Instr) (s t : State), exec i s = .next t →
    let nz : List Mnemonic := [.lda, .ldx, .ldy, .tax, .tay, .txa, .tya, .tsx, .txs, .pla, .inx, .iny, .dex, .dey, .ora, .and, .eor,
      .adc, .sbc, .inc, .dec, .asl, .lsr, .rol, .ror, .cmp, .cpx, .cpy, .bit, .plp]
    (i.mnemonic ∉ nz → t.flags.n = s.flags.n ∧ t.flags.z = s.flags.z) ∧
    (i.mnemonic ∉ [.asl, .lsr, .rol, .ror, .cmp, .cpx, .cpy, .clc, .sec, .plp] → t.flags.c = s.flags.c) ∧
    (i.mnemonic ∉ [.bit, .clv, .plp] → t.flags.v = s.flags.v) ∧ (i.mnemonic ∉ [.brk, .rti, .plp] → t.flags.b = s.flags.b) ∧
    (i.mnemonic ∉ [.sed, .cld, .plp] → t.flags.d = s.flags.d) ∧
    (i.mnemonic ∉ [.sei, .cli, .brk, .rti, .plp] → t.flags.i = s.flags.i)

/-- 10_state.md R18, R31 and 70_reset_and_hazards.md R149: the instructions that may change A, X, Y, SP and PC; none changes IR. -/
def Obligations.OnlyListedInstructionsWriteARegister : Prop :=
  ∀ (i : Instr) (s t : State), exec i s = .next t →
    (i.mnemonic ∉ [.lda, .txa, .tya, .pla, .ora, .and, .eor, .adc, .sbc, .asl, .lsr, .rol, .ror] → t.a = s.a) ∧
    (s.params.addr0SelectsAcc = false → i.mode ≠ .acc → i.mnemonic ∈ [.asl, .lsr, .rol, .ror] → t.a = s.a) ∧
    (i.mnemonic ∉ [.ldx, .tax, .tsx, .inx, .dex] → t.x = s.x) ∧ (i.mnemonic ∉ [.ldy, .tay, .iny, .dey] → t.y = s.y) ∧
    (i.mnemonic ∉ [.txs, .pha, .php, .pla, .plp, .jsr, .rts, .brk, .rti] → t.sp = s.sp) ∧
    (i.mode ≠ .rel → i.mnemonic ∉ [.jmp, .jsr, .rts, .brk, .rti] → t.pc = s.pc) ∧ t.ir = s.ir

/-- 30_encoding.md R57: an instruction that is no store, no memory read-modify-write and no push leaves every byte of memory as it
was. -/
def Obligations.NonStoringInstructionsKeepMemory : Prop :=
  ∀ (i : Instr) (s t : State), exec i s = .next t →
    i.mode = .acc ∨ i.mnemonic ∉ [.sta, .stx, .sty, .inc, .dec, .asl, .lsr, .rol, .ror, .pha, .php, .jsr, .brk] →
    ∀ a : Word, t.mem.peek a = s.mem.peek a

/-- 60_exceptions.md R130, R132, R134: an instruction that changes the fault record raised one fault of a kind it can raise, recorded with
IR and its opcode's address; a stack fault only where one of its own pushes or pops meets the bound (10_state.md R23, R24): the one
byte of PHA, PHP, PLA and PLP, either of the two of JSR, BRK, RTS and RTI. -/
def Obligations.OnlyListedInstructionsRaiseAFault : Prop :=
  ∀ (i : Instr) (s t : State), exec i s = .next t → t.fault ≠ s.fault →
    ∃ k, t.fault = recorded k s i.length ∧
      (k = .unimplementedOpcode → i.mnemonic = .illegal) ∧
      (k = .stackOverflow → i.mnemonic ∈ [.pha, .php] ∧ s.sp.toNat = 0 ∨ i.mnemonic ∈ [.jsr, .brk] ∧ s.sp.toNat ≤ 1) ∧
      (k = .stackUnderflow → i.mnemonic ∈ [.pla, .plp] ∧ s.sp.toNat = 0xFF ∨ i.mnemonic ∈ [.rts, .rti] ∧ 0xFE ≤ s.sp.toNat)

/-- 10_state.md R33, 60_exceptions.md R145: HLT sets `halted`; every other instruction keeps it. -/
def Obligations.OnlyHaltHalts : Prop :=
  ∀ (i : Instr) (s t : State), exec i s = .next t → (i = .hlt ∧ t.halted = true) ∨ (i ≠ .hlt ∧ t.halted = s.halted)

/-- An instruction's result with its flags changed by `f`. -/
def Sys2Proof.mapFlags (f : Flags → Flags) (o : Host.Outcome State Fault Refusal) : Host.Outcome State Fault Refusal :=
  match o with
  | .next s => .next { s with flags := f s.flags }
  | .fault r => .fault r
  | .refused r => .refused r

/-- 42_alu.md R85, 10_state.md R30: D changes the result of no instruction but PHP, which packs it, and PLP, CLD and SED, which write it. The two
runs compared start with the same draw counter, so device answers are taken equal in both (log 5). -/
def Obligations.DecimalFlagIsInert : Prop :=
  ∀ (i : Instr) (s : State) (d : Bool), i.mnemonic ∉ [.php, .plp, .cld, .sed] →
    exec i { s with flags := { s.flags with d := d } } = mapFlags (fun f => { f with d := d }) (exec i s)

/-- 60_exceptions.md R135: I masks nothing: it changes the result of no instruction but PHP, and those that write it. The two runs compared
start with the same draw counter, so device answers are taken equal in both (log 5). -/
def Obligations.InterruptFlagIsInert : Prop :=
  ∀ (i : Instr) (s : State) (d : Bool), i.mnemonic ∉ [.php, .plp, .cli, .sei, .brk, .rti] →
    exec i { s with flags := { s.flags with i := d } } = mapFlags (fun f => { f with i := d }) (exec i s)

/-- 20_memory.md R42, 00_scope.md R9: no step changes the region map or a parameter, and while the core runs the host's `map`
actions are refused. -/
def Obligations.MapAndParametersAreConstantInARun : Prop :=
  (∀ s t : State, step s = .next t → t.mem.bindings = s.mem.bindings ∧ t.params = s.params) ∧
  ∀ (s : State) (lo hi : Nat) (bytes : List Byte) (w : Bool), s.halted = false → s.fault = none →
    hostMapDevice lo hi s = .refused .coreRunning ∧ hostMapBytes lo hi bytes w s = .refused .coreRunning

/-- Every step keeps the invariant: canonical memory, BUS and IR of a halted core, a fault not halting, and a fault record that
names IR and an opcode that can raise its kind. -/
def Obligations.EveryStepKeepsTheInvariant : Prop :=
  ∀ s t : State, s.Inv → step s = .next t → t.Inv

/-- Reset meets the invariant, from any canonical memory, and so does the fixed reset state. -/
def Obligations.ResetMeetsTheInvariant : Prop :=
  State.reset.Inv ∧ ∀ s : State, s.mem.wf → (resetSequence s).Inv
end

