-- ==== Sys2Proof/Laws/Assembler.lean ====
section
/-! SUPPORT. The assembler's contract (30_encoding.md R66, R67): one lemma for each of its requirements. -/

namespace Sys2Proof

/-- R66, requirement 1: a pair that no opcode has is refused. -/
theorem assembleOpcode_unknown {m : Mnemonic} {md : Mode} (h : opcodeFor m md = none) :
    assembleOpcode m md = .error .unknownEncoding := by
  simp [assembleOpcode, h]

/-- R66, requirement 2: a pair whose descriptor is illegal is refused. -/
theorem assembleOpcode_illegal : assembleOpcode .illegal .imp = .error .unimplementedOpcode := by decide

/-- Everything `assembleOpcode` can do: an opcode that is not illegal, or one of the two refusals of R66. -/
theorem assembleOpcode_cases (m : Mnemonic) (md : Mode) :
    (∃ op, opcodeFor m md = some op ∧ isIllegalByte op = false ∧ assembleOpcode m md = .ok op) ∨
    (∃ op, opcodeFor m md = some op ∧ isIllegalByte op = true ∧ assembleOpcode m md = .error .unimplementedOpcode) ∨
    (opcodeFor m md = none ∧ assembleOpcode m md = .error .unknownEncoding) := by
  cases h : opcodeFor m md with
  | none => exact .inr (.inr ⟨rfl, assembleOpcode_unknown h⟩)
  | some op => cases hi : isIllegalByte op <;> simp [assembleOpcode, h, hi]

/-- A form is refused exactly as its pair is. -/
theorem assemble_refused {m : Mnemonic} {f : Form} {x : AsmError} (h : assembleOpcode m f.mode = .error x) :
    assemble m f = .error x := by
  simp [assemble, h]

theorem assemble_ok {m : Mnemonic} {f : Form} {op : Byte} (h : assembleOpcode m f.mode = .ok op) :
    assemble m f = .ok (op :: f.bytes) := by
  simp [assemble, h]

/-- R66, requirements 1 and 2: a line whose pair is refused fails so, wherever it stands and however far its target is. -/
theorem assembleLine_refused (a t : Word) {m : Mnemonic} {x : AsmError} (h : assembleOpcode m .rel = .error x) :
    assembleLine a ⟨m, .target t⟩ = .error x := by
  simp [assembleLine, h]

/-- R67: a branch line assembles to its opcode and its displacement byte, and is refused as the displacement is. -/
theorem assembleLine_branch (a t : Word) {m : Mnemonic} {op : Byte} (h : assembleOpcode m .rel = .ok op) :
    assembleLine a ⟨m, .target t⟩ = (branchByte a t).map fun e => [op, e] := by
  simp only [assembleLine, h, Form.bytes]
  cases branchByte a t <;> rfl

/-- Lines stand one after another, each at the address after the bytes of the line before. -/
theorem assembleLines_cons {a : Word} {l : SourceLine} {bs more : List Byte} (rest : List SourceLine)
    (h : assembleLine a l = .ok bs) (hr : assembleLines (a + BitVec.ofNat 16 bs.length) rest = .ok more) :
    assembleLines a (l :: rest) = .ok (bs ++ more) := by
  simp [assembleLines, h, hr]

/-- The trailing instruction is HLT or RTS, and ends a program. -/
theorem trailingLine_cases (n : Nat) :
    (trailingLine n = ⟨.hlt, .form .imp⟩ ∨ trailingLine n = ⟨.rts, .form .imp⟩) ∧ (trailingLine n).endsProgram = true := by
  unfold trailingLine
  cases Config.trailingIsHalt n <;> decide

/-- R66, requirement 3: a source that ends in HLT or RTS is assembled as it is. -/
theorem assembleProgram_of_ends (n : Nat) (a : Word) (source : List SourceLine) (l : SourceLine)
    (h : source.getLast? = some l) (he : l.endsProgram = true) : assembleProgram n a source = assembleLines a source := by
  simp [assembleProgram, withTrailing, h, he]

/-- R66, requirement 3: any other source is assembled with a trailing HLT or a trailing RTS. -/
theorem assembleProgram_of_not_ends (n : Nat) (a : Word) (source : List SourceLine)
    (h : ∀ l, source.getLast? = some l → l.endsProgram = false) :
    assembleProgram n a source = assembleLines a (source ++ [⟨.hlt, .form .imp⟩]) ∨
    assembleProgram n a source = assembleLines a (source ++ [⟨.rts, .form .imp⟩]) := by
  have hs : withTrailing n source = source ++ [trailingLine n] := by
    unfold withTrailing
    rw [if_neg]
    cases hl : source.getLast? with
    | none => simp
    | some l => simp [h l hl]
  unfold assembleProgram
  rw [hs]
  rcases (trailingLine_cases n).1 with e | e <;> rw [e]
  · exact .inl rfl
  · exact .inr rfl

/-- Every assembled program ends in HLT or RTS. -/
theorem withTrailing_ends (n : Nat) (source : List SourceLine) :
    ∃ l, (withTrailing n source).getLast? = some l ∧ l.endsProgram = true := by
  unfold withTrailing
  split
  · next h =>
    cases hl : source.getLast? with
    | none => simp [hl] at h
    | some l => exact ⟨l, rfl, by simpa [hl] using h⟩
  · exact ⟨trailingLine n, by simp, (trailingLine_cases n).2⟩

end Sys2Proof
end

