-- ==== Sys2Proof/Laws/State.lean ====
section
/-! SUPPORT. One lemma for each field and each update of State, so that no later proof unfolds a record update. -/

namespace Sys2Proof.Machine

open Sys2Proof

/-! ### setPc -/

@[simp] theorem setPc_a (s : State) (w : Word) : (s.setPc w).a = s.a := rfl
@[simp] theorem setPc_x (s : State) (w : Word) : (s.setPc w).x = s.x := rfl
@[simp] theorem setPc_y (s : State) (w : Word) : (s.setPc w).y = s.y := rfl
@[simp] theorem setPc_pc (s : State) (w : Word) : (s.setPc w).pc = w := rfl
@[simp] theorem setPc_sp (s : State) (w : Word) : (s.setPc w).sp = s.sp := rfl
@[simp] theorem setPc_flags (s : State) (w : Word) : (s.setPc w).flags = s.flags := rfl
@[simp] theorem setPc_ir (s : State) (w : Word) : (s.setPc w).ir = s.ir := rfl
@[simp] theorem setPc_bus (s : State) (w : Word) : (s.setPc w).bus = s.bus := rfl
@[simp] theorem setPc_halted (s : State) (w : Word) : (s.setPc w).halted = s.halted := rfl
@[simp] theorem setPc_fault (s : State) (w : Word) : (s.setPc w).fault = s.fault := rfl
@[simp] theorem setPc_mem (s : State) (w : Word) : (s.setPc w).mem = s.mem := rfl
@[simp] theorem setPc_params (s : State) (w : Word) : (s.setPc w).params = s.params := rfl
@[simp] theorem setPc_devLog (s : State) (w : Word) : (s.setPc w).devLog = s.devLog := rfl
@[simp] theorem setPc_draws (s : State) (w : Word) : (s.setPc w).draws = s.draws := rfl

/-! ### setFlags -/

@[simp] theorem setFlags_a (s : State) (f : Flags) : (s.setFlags f).a = s.a := rfl
@[simp] theorem setFlags_x (s : State) (f : Flags) : (s.setFlags f).x = s.x := rfl
@[simp] theorem setFlags_y (s : State) (f : Flags) : (s.setFlags f).y = s.y := rfl
@[simp] theorem setFlags_pc (s : State) (f : Flags) : (s.setFlags f).pc = s.pc := rfl
@[simp] theorem setFlags_sp (s : State) (f : Flags) : (s.setFlags f).sp = s.sp := rfl
@[simp] theorem setFlags_flags (s : State) (f : Flags) : (s.setFlags f).flags = f := rfl
@[simp] theorem setFlags_ir (s : State) (f : Flags) : (s.setFlags f).ir = s.ir := rfl
@[simp] theorem setFlags_bus (s : State) (f : Flags) : (s.setFlags f).bus = s.bus := rfl
@[simp] theorem setFlags_halted (s : State) (f : Flags) : (s.setFlags f).halted = s.halted := rfl
@[simp] theorem setFlags_fault (s : State) (f : Flags) : (s.setFlags f).fault = s.fault := rfl
@[simp] theorem setFlags_mem (s : State) (f : Flags) : (s.setFlags f).mem = s.mem := rfl
@[simp] theorem setFlags_params (s : State) (f : Flags) : (s.setFlags f).params = s.params := rfl
@[simp] theorem setFlags_devLog (s : State) (f : Flags) : (s.setFlags f).devLog = s.devLog := rfl
@[simp] theorem setFlags_draws (s : State) (f : Flags) : (s.setFlags f).draws = s.draws := rfl

/-! ### setMem -/

@[simp] theorem setMem_a (s : State) (m : Memory) : (s.setMem m).a = s.a := rfl
@[simp] theorem setMem_x (s : State) (m : Memory) : (s.setMem m).x = s.x := rfl
@[simp] theorem setMem_y (s : State) (m : Memory) : (s.setMem m).y = s.y := rfl
@[simp] theorem setMem_pc (s : State) (m : Memory) : (s.setMem m).pc = s.pc := rfl
@[simp] theorem setMem_sp (s : State) (m : Memory) : (s.setMem m).sp = s.sp := rfl
@[simp] theorem setMem_flags (s : State) (m : Memory) : (s.setMem m).flags = s.flags := rfl
@[simp] theorem setMem_ir (s : State) (m : Memory) : (s.setMem m).ir = s.ir := rfl
@[simp] theorem setMem_bus (s : State) (m : Memory) : (s.setMem m).bus = s.bus := rfl
@[simp] theorem setMem_halted (s : State) (m : Memory) : (s.setMem m).halted = s.halted := rfl
@[simp] theorem setMem_fault (s : State) (m : Memory) : (s.setMem m).fault = s.fault := rfl
@[simp] theorem setMem_mem (s : State) (m : Memory) : (s.setMem m).mem = m := rfl
@[simp] theorem setMem_params (s : State) (m : Memory) : (s.setMem m).params = s.params := rfl
@[simp] theorem setMem_devLog (s : State) (m : Memory) : (s.setMem m).devLog = s.devLog := rfl
@[simp] theorem setMem_draws (s : State) (m : Memory) : (s.setMem m).draws = s.draws := rfl

/-! ### setIr -/

@[simp] theorem setIr_a (s : State) (v : Byte) : (s.setIr v).a = s.a := rfl
@[simp] theorem setIr_x (s : State) (v : Byte) : (s.setIr v).x = s.x := rfl
@[simp] theorem setIr_y (s : State) (v : Byte) : (s.setIr v).y = s.y := rfl
@[simp] theorem setIr_pc (s : State) (v : Byte) : (s.setIr v).pc = s.pc := rfl
@[simp] theorem setIr_sp (s : State) (v : Byte) : (s.setIr v).sp = s.sp := rfl
@[simp] theorem setIr_flags (s : State) (v : Byte) : (s.setIr v).flags = s.flags := rfl
@[simp] theorem setIr_ir (s : State) (v : Byte) : (s.setIr v).ir = v := rfl
@[simp] theorem setIr_bus (s : State) (v : Byte) : (s.setIr v).bus = s.bus := rfl
@[simp] theorem setIr_halted (s : State) (v : Byte) : (s.setIr v).halted = s.halted := rfl
@[simp] theorem setIr_fault (s : State) (v : Byte) : (s.setIr v).fault = s.fault := rfl
@[simp] theorem setIr_mem (s : State) (v : Byte) : (s.setIr v).mem = s.mem := rfl
@[simp] theorem setIr_params (s : State) (v : Byte) : (s.setIr v).params = s.params := rfl
@[simp] theorem setIr_devLog (s : State) (v : Byte) : (s.setIr v).devLog = s.devLog := rfl
@[simp] theorem setIr_draws (s : State) (v : Byte) : (s.setIr v).draws = s.draws := rfl

/-! ### logDevice -/

@[simp] theorem logDevice_a (s : State) (e : DevAccess) : (s.logDevice e).a = s.a := rfl
@[simp] theorem logDevice_x (s : State) (e : DevAccess) : (s.logDevice e).x = s.x := rfl
@[simp] theorem logDevice_y (s : State) (e : DevAccess) : (s.logDevice e).y = s.y := rfl
@[simp] theorem logDevice_pc (s : State) (e : DevAccess) : (s.logDevice e).pc = s.pc := rfl
@[simp] theorem logDevice_sp (s : State) (e : DevAccess) : (s.logDevice e).sp = s.sp := rfl
@[simp] theorem logDevice_flags (s : State) (e : DevAccess) : (s.logDevice e).flags = s.flags := rfl
@[simp] theorem logDevice_ir (s : State) (e : DevAccess) : (s.logDevice e).ir = s.ir := rfl
@[simp] theorem logDevice_bus (s : State) (e : DevAccess) : (s.logDevice e).bus = s.bus := rfl
@[simp] theorem logDevice_halted (s : State) (e : DevAccess) : (s.logDevice e).halted = s.halted := rfl
@[simp] theorem logDevice_fault (s : State) (e : DevAccess) : (s.logDevice e).fault = s.fault := rfl
@[simp] theorem logDevice_mem (s : State) (e : DevAccess) : (s.logDevice e).mem = s.mem := rfl
@[simp] theorem logDevice_params (s : State) (e : DevAccess) : (s.logDevice e).params = s.params := rfl
@[simp] theorem logDevice_devLog (s : State) (e : DevAccess) : (s.logDevice e).devLog = e :: s.devLog := rfl
@[simp] theorem logDevice_draws (s : State) (e : DevAccess) : (s.logDevice e).draws = s.draws := rfl

/-! ### drawn -/

@[simp] theorem drawn_a (s : State) : (s.drawn).a = s.a := rfl
@[simp] theorem drawn_x (s : State) : (s.drawn).x = s.x := rfl
@[simp] theorem drawn_y (s : State) : (s.drawn).y = s.y := rfl
@[simp] theorem drawn_pc (s : State) : (s.drawn).pc = s.pc := rfl
@[simp] theorem drawn_sp (s : State) : (s.drawn).sp = s.sp := rfl
@[simp] theorem drawn_flags (s : State) : (s.drawn).flags = s.flags := rfl
@[simp] theorem drawn_ir (s : State) : (s.drawn).ir = s.ir := rfl
@[simp] theorem drawn_bus (s : State) : (s.drawn).bus = s.bus := rfl
@[simp] theorem drawn_halted (s : State) : (s.drawn).halted = s.halted := rfl
@[simp] theorem drawn_fault (s : State) : (s.drawn).fault = s.fault := rfl
@[simp] theorem drawn_mem (s : State) : (s.drawn).mem = s.mem := rfl
@[simp] theorem drawn_params (s : State) : (s.drawn).params = s.params := rfl
@[simp] theorem drawn_devLog (s : State) : (s.drawn).devLog = s.devLog := rfl
@[simp] theorem drawn_draws (s : State) : (s.drawn).draws = s.draws + 1 := rfl

/-! ### drawBus -/

@[simp] theorem drawBus_a (s : State) : (s.drawBus).a = s.a := rfl
@[simp] theorem drawBus_x (s : State) : (s.drawBus).x = s.x := rfl
@[simp] theorem drawBus_y (s : State) : (s.drawBus).y = s.y := rfl
@[simp] theorem drawBus_pc (s : State) : (s.drawBus).pc = s.pc := rfl
@[simp] theorem drawBus_sp (s : State) : (s.drawBus).sp = s.sp := rfl
@[simp] theorem drawBus_flags (s : State) : (s.drawBus).flags = s.flags := rfl
@[simp] theorem drawBus_ir (s : State) : (s.drawBus).ir = s.ir := rfl
@[simp] theorem drawBus_bus (s : State) : (s.drawBus).bus = Config.busValue s.draws := rfl
@[simp] theorem drawBus_halted (s : State) : (s.drawBus).halted = s.halted := rfl
@[simp] theorem drawBus_fault (s : State) : (s.drawBus).fault = s.fault := rfl
@[simp] theorem drawBus_mem (s : State) : (s.drawBus).mem = s.mem := rfl
@[simp] theorem drawBus_params (s : State) : (s.drawBus).params = s.params := rfl
@[simp] theorem drawBus_devLog (s : State) : (s.drawBus).devLog = s.devLog := rfl
@[simp] theorem drawBus_draws (s : State) : (s.drawBus).draws = s.draws + 1 := rfl

/-! ### halt -/

@[simp] theorem halt_a (s : State) : (s.halt).a = s.a := rfl
@[simp] theorem halt_x (s : State) : (s.halt).x = s.x := rfl
@[simp] theorem halt_y (s : State) : (s.halt).y = s.y := rfl
@[simp] theorem halt_pc (s : State) : (s.halt).pc = s.pc := rfl
@[simp] theorem halt_sp (s : State) : (s.halt).sp = s.sp := rfl
@[simp] theorem halt_flags (s : State) : (s.halt).flags = s.flags := rfl
@[simp] theorem halt_ir (s : State) : (s.halt).ir = s.ir := rfl
@[simp] theorem halt_bus (s : State) : (s.halt).bus = 0xFF#8 := rfl
@[simp] theorem halt_halted (s : State) : (s.halt).halted = true := rfl
@[simp] theorem halt_fault (s : State) : (s.halt).fault = s.fault := rfl
@[simp] theorem halt_mem (s : State) : (s.halt).mem = s.mem := rfl
@[simp] theorem halt_params (s : State) : (s.halt).params = s.params := rfl
@[simp] theorem halt_devLog (s : State) : (s.halt).devLog = s.devLog := rfl
@[simp] theorem halt_draws (s : State) : (s.halt).draws = s.draws := rfl

/-! ### raiseFault -/

@[simp] theorem raiseFault_a (k : FaultKind) (w : Word) (s : State) : (raiseFault k w s).a = s.a := rfl
@[simp] theorem raiseFault_x (k : FaultKind) (w : Word) (s : State) : (raiseFault k w s).x = s.x := rfl
@[simp] theorem raiseFault_y (k : FaultKind) (w : Word) (s : State) : (raiseFault k w s).y = s.y := rfl
@[simp] theorem raiseFault_pc (k : FaultKind) (w : Word) (s : State) : (raiseFault k w s).pc = s.pc := rfl
@[simp] theorem raiseFault_sp (k : FaultKind) (w : Word) (s : State) : (raiseFault k w s).sp = s.sp := rfl
@[simp] theorem raiseFault_flags (k : FaultKind) (w : Word) (s : State) : (raiseFault k w s).flags = s.flags := rfl
@[simp] theorem raiseFault_ir (k : FaultKind) (w : Word) (s : State) : (raiseFault k w s).ir = s.ir := rfl
@[simp] theorem raiseFault_bus (k : FaultKind) (w : Word) (s : State) : (raiseFault k w s).bus = s.bus := rfl
@[simp] theorem raiseFault_halted (k : FaultKind) (w : Word) (s : State) : (raiseFault k w s).halted = s.halted := rfl
@[simp] theorem raiseFault_fault (k : FaultKind) (w : Word) (s : State) : (raiseFault k w s).fault = some ⟨k, s.ir, w⟩ := rfl
@[simp] theorem raiseFault_mem (k : FaultKind) (w : Word) (s : State) : (raiseFault k w s).mem = s.mem := rfl
@[simp] theorem raiseFault_params (k : FaultKind) (w : Word) (s : State) : (raiseFault k w s).params = s.params := rfl
@[simp] theorem raiseFault_devLog (k : FaultKind) (w : Word) (s : State) : (raiseFault k w s).devLog = s.devLog := rfl
@[simp] theorem raiseFault_draws (k : FaultKind) (w : Word) (s : State) : (raiseFault k w s).draws = s.draws := rfl

/-! ### cleared -/

@[simp] theorem cleared_a (s : State) : (s.cleared).a = 0x00#8 := rfl
@[simp] theorem cleared_x (s : State) : (s.cleared).x = 0x00#8 := rfl
@[simp] theorem cleared_y (s : State) : (s.cleared).y = 0x00#8 := rfl
@[simp] theorem cleared_pc (s : State) : (s.cleared).pc = Config.resetVector := rfl
@[simp] theorem cleared_sp (s : State) : (s.cleared).sp = 0xFF#8 := rfl
@[simp] theorem cleared_flags (s : State) : (s.cleared).flags = Flags.clear := rfl
@[simp] theorem cleared_ir (s : State) : (s.cleared).ir = 0x00#8 := rfl
@[simp] theorem cleared_bus (s : State) : (s.cleared).bus = 0x00#8 := rfl
@[simp] theorem cleared_halted (s : State) : (s.cleared).halted = false := rfl
@[simp] theorem cleared_fault (s : State) : (s.cleared).fault = none := rfl
@[simp] theorem cleared_mem (s : State) : (s.cleared).mem = s.mem := rfl
@[simp] theorem cleared_params (s : State) : (s.cleared).params = s.params := rfl
@[simp] theorem cleared_devLog (s : State) : (s.cleared).devLog = s.devLog := rfl
@[simp] theorem cleared_draws (s : State) : (s.cleared).draws = s.draws := rfl

/-! ### setReg -/

@[simp] theorem setReg_pc (s : State) (r : Reg) (v : Byte) : (s.setReg r v).pc = s.pc := by cases r <;> rfl
@[simp] theorem setReg_flags (s : State) (r : Reg) (v : Byte) : (s.setReg r v).flags = s.flags := by cases r <;> rfl
@[simp] theorem setReg_ir (s : State) (r : Reg) (v : Byte) : (s.setReg r v).ir = s.ir := by cases r <;> rfl
@[simp] theorem setReg_bus (s : State) (r : Reg) (v : Byte) : (s.setReg r v).bus = s.bus := by cases r <;> rfl
@[simp] theorem setReg_halted (s : State) (r : Reg) (v : Byte) : (s.setReg r v).halted = s.halted := by cases r <;> rfl
@[simp] theorem setReg_fault (s : State) (r : Reg) (v : Byte) : (s.setReg r v).fault = s.fault := by cases r <;> rfl
@[simp] theorem setReg_mem (s : State) (r : Reg) (v : Byte) : (s.setReg r v).mem = s.mem := by cases r <;> rfl
@[simp] theorem setReg_params (s : State) (r : Reg) (v : Byte) : (s.setReg r v).params = s.params := by cases r <;> rfl
@[simp] theorem setReg_devLog (s : State) (r : Reg) (v : Byte) : (s.setReg r v).devLog = s.devLog := by cases r <;> rfl
@[simp] theorem setReg_draws (s : State) (r : Reg) (v : Byte) : (s.setReg r v).draws = s.draws := by cases r <;> rfl
@[simp] theorem setReg_a_a (s : State) (v : Byte) : (s.setReg .a v).a = v := rfl
@[simp] theorem setReg_a_x (s : State) (v : Byte) : (s.setReg .a v).x = s.x := rfl
@[simp] theorem setReg_a_y (s : State) (v : Byte) : (s.setReg .a v).y = s.y := rfl
@[simp] theorem setReg_a_sp (s : State) (v : Byte) : (s.setReg .a v).sp = s.sp := rfl
@[simp] theorem setReg_x_a (s : State) (v : Byte) : (s.setReg .x v).a = s.a := rfl
@[simp] theorem setReg_x_x (s : State) (v : Byte) : (s.setReg .x v).x = v := rfl
@[simp] theorem setReg_x_y (s : State) (v : Byte) : (s.setReg .x v).y = s.y := rfl
@[simp] theorem setReg_x_sp (s : State) (v : Byte) : (s.setReg .x v).sp = s.sp := rfl
@[simp] theorem setReg_y_a (s : State) (v : Byte) : (s.setReg .y v).a = s.a := rfl
@[simp] theorem setReg_y_x (s : State) (v : Byte) : (s.setReg .y v).x = s.x := rfl
@[simp] theorem setReg_y_y (s : State) (v : Byte) : (s.setReg .y v).y = v := rfl
@[simp] theorem setReg_y_sp (s : State) (v : Byte) : (s.setReg .y v).sp = s.sp := rfl
@[simp] theorem setReg_sp_a (s : State) (v : Byte) : (s.setReg .sp v).a = s.a := rfl
@[simp] theorem setReg_sp_x (s : State) (v : Byte) : (s.setReg .sp v).x = s.x := rfl
@[simp] theorem setReg_sp_y (s : State) (v : Byte) : (s.setReg .sp v).y = s.y := rfl
@[simp] theorem setReg_sp_sp (s : State) (v : Byte) : (s.setReg .sp v).sp = v := rfl

/-- A register reads back as it was written, and writing it leaves the other three (10_state.md R18). -/
theorem reg_setReg (s : State) (r q : Reg) (v : Byte) : (s.setReg r v).reg q = if q = r then v else s.reg q := by
  cases r <;> cases q <;> rfl

/-! ### load -/

@[simp] theorem load_pc (r : Reg) (v : Byte) (s : State) : (load r v s).pc = s.pc := by cases r <;> rfl
@[simp] theorem load_flags (r : Reg) (v : Byte) (s : State) : (load r v s).flags = s.flags.setNZ v := by cases r <;> rfl
@[simp] theorem load_ir (r : Reg) (v : Byte) (s : State) : (load r v s).ir = s.ir := by cases r <;> rfl
@[simp] theorem load_bus (r : Reg) (v : Byte) (s : State) : (load r v s).bus = s.bus := by cases r <;> rfl
@[simp] theorem load_halted (r : Reg) (v : Byte) (s : State) : (load r v s).halted = s.halted := by cases r <;> rfl
@[simp] theorem load_fault (r : Reg) (v : Byte) (s : State) : (load r v s).fault = s.fault := by cases r <;> rfl
@[simp] theorem load_mem (r : Reg) (v : Byte) (s : State) : (load r v s).mem = s.mem := by cases r <;> rfl
@[simp] theorem load_params (r : Reg) (v : Byte) (s : State) : (load r v s).params = s.params := by cases r <;> rfl
@[simp] theorem load_devLog (r : Reg) (v : Byte) (s : State) : (load r v s).devLog = s.devLog := by cases r <;> rfl
@[simp] theorem load_draws (r : Reg) (v : Byte) (s : State) : (load r v s).draws = s.draws := by cases r <;> rfl
@[simp] theorem load_a_a (v : Byte) (s : State) : (load .a v s).a = v := rfl
@[simp] theorem load_a_x (v : Byte) (s : State) : (load .a v s).x = s.x := rfl
@[simp] theorem load_a_y (v : Byte) (s : State) : (load .a v s).y = s.y := rfl
@[simp] theorem load_a_sp (v : Byte) (s : State) : (load .a v s).sp = s.sp := rfl
@[simp] theorem load_x_a (v : Byte) (s : State) : (load .x v s).a = s.a := rfl
@[simp] theorem load_x_x (v : Byte) (s : State) : (load .x v s).x = v := rfl
@[simp] theorem load_x_y (v : Byte) (s : State) : (load .x v s).y = s.y := rfl
@[simp] theorem load_x_sp (v : Byte) (s : State) : (load .x v s).sp = s.sp := rfl
@[simp] theorem load_y_a (v : Byte) (s : State) : (load .y v s).a = s.a := rfl
@[simp] theorem load_y_x (v : Byte) (s : State) : (load .y v s).x = s.x := rfl
@[simp] theorem load_y_y (v : Byte) (s : State) : (load .y v s).y = v := rfl
@[simp] theorem load_y_sp (v : Byte) (s : State) : (load .y v s).sp = s.sp := rfl
@[simp] theorem load_sp_a (v : Byte) (s : State) : (load .sp v s).a = s.a := rfl
@[simp] theorem load_sp_x (v : Byte) (s : State) : (load .sp v s).x = s.x := rfl
@[simp] theorem load_sp_y (v : Byte) (s : State) : (load .sp v s).y = s.y := rfl
@[simp] theorem load_sp_sp (v : Byte) (s : State) : (load .sp v s).sp = v := rfl

end Sys2Proof.Machine
end

