-- ==== Sys2Proof/Laws/Memory.lean ====
section
/-! SUPPORT. Memory as data: a cell reads back as it was written, every other cell is left alone, and every operation keeps
the canonical form (20_memory.md R37-R41). -/

namespace Sys2Proof.Machine

open Sys2Proof

/-! ### Cells -/

theorem getCell_setCell_same (l : List Host.Cell) (k : Nat) (v : Byte) (h : cellsWf l) :
    getCell (setCell l k v) k = v := by
  induction l with
  | nil => by_cases hv : v = Memory.initial k <;> simp [setCell, getCell, hv]
  | cons c rest ih =>
    obtain ⟨hp, hn⟩ := h
    have hr : cellsWf rest := ⟨hp.tail, fun d hd => hn d (List.mem_cons_of_mem _ hd)⟩
    have hgt : ∀ d ∈ rest, c.1 < d.1 := fun d hd => List.rel_of_pairwise_cons hp hd
    have absent : ∀ (l : List Host.Cell), (∀ d ∈ l, k < d.1) → getCell l k = Memory.initial k := by
      intro l
      induction l with
      | nil => intro _; rfl
      | cons d l' ih' =>
        intro hl
        have hd : d.1 ≠ k := by have := hl d (List.mem_cons_self ..); omega
        simp only [getCell, hd, if_false]
        exact ih' fun e he => hl e (List.mem_cons_of_mem _ he)
    unfold setCell
    split
    · next hlt => simp only [getCell]; rw [if_neg (by omega)]; exact ih hr
    · split
      · next hge heq =>
        split
        · next hv => rw [absent rest (fun d hd => by have := hgt d hd; omega)]; exact hv.symm
        · simp [getCell]
      · next hge hne =>
        split
        · next hv =>
          rw [absent (c :: rest) (by
            intro d hd
            rcases List.mem_cons.mp hd with rfl | hd
            · omega
            · have := hgt d hd; omega)]
          exact hv.symm
        · simp [getCell]

theorem getCell_setCell_other (l : List Host.Cell) (j k : Nat) (v : Byte) (h : j ≠ k) :
    getCell (setCell l k v) j = getCell l j := by
  induction l with
  | nil => by_cases hv : v = Memory.initial k <;> simp [setCell, getCell, hv, h.symm]
  | cons c rest ih =>
    unfold setCell
    split
    · simp only [getCell, ih]
    · split
      · next heq =>
        have hc : c.1 ≠ j := by omega
        split <;> simp [getCell, hc, h.symm]
      · split <;> simp [getCell, h.symm]

theorem mem_setCell {l : List Host.Cell} {k : Nat} {v : Byte} {c : Host.Cell} (h : c ∈ setCell l k v) :
    c ∈ l ∨ (c = (k, v) ∧ v ≠ Memory.initial k) := by
  induction l with
  | nil => by_cases hv : v = Memory.initial k <;> simp_all [setCell]
  | cons d rest ih =>
    unfold setCell at h
    split at h
    · rcases List.mem_cons.mp h with rfl | h
      · exact .inl (List.mem_cons_self ..)
      · rcases ih h with h | h
        · exact .inl (List.mem_cons_of_mem _ h)
        · exact .inr h
    · split at h
      · split at h
        · exact .inl (List.mem_cons_of_mem _ h)
        · rcases List.mem_cons.mp h with rfl | h
          · exact .inr ⟨rfl, ‹_›⟩
          · exact .inl (List.mem_cons_of_mem _ h)
      · split at h
        · exact .inl h
        · rcases List.mem_cons.mp h with rfl | h
          · exact .inr ⟨rfl, ‹_›⟩
          · exact .inl h

theorem setCell_wf (l : List Host.Cell) (k : Nat) (v : Byte) (h : cellsWf l) : cellsWf (setCell l k v) := by
  refine ⟨?_, fun c hc => ?_⟩
  · induction l with
    | nil => by_cases hv : v = Memory.initial k <;> simp [setCell, hv]
    | cons d rest ih =>
      have hr : cellsWf rest := ⟨h.1.tail, fun e he => h.2 e (List.mem_cons_of_mem _ he)⟩
      have hgt : ∀ e ∈ rest, d.1 < e.1 := fun e he => List.rel_of_pairwise_cons h.1 he
      unfold setCell
      split
      · next hlt =>
        refine List.pairwise_cons.mpr ⟨fun e he => ?_, ih hr⟩
        rcases mem_setCell he with he | ⟨rfl, _⟩
        · exact hgt e he
        · exact hlt
      · split
        · next heq =>
          split
          · exact hr.1
          · exact List.pairwise_cons.mpr ⟨fun e he => by have := hgt e he; simp only; omega, hr.1⟩
        · split
          · exact h.1
          · refine List.pairwise_cons.mpr ⟨fun e he => ?_, h.1⟩
            rcases List.mem_cons.mp he with rfl | he
            · simp only; omega
            · have := hgt e he; simp only; omega
  · rcases mem_setCell hc with hc | ⟨rfl, hv⟩
    · exact h.2 c hc
    · exact hv

theorem setCells_wf (vs : List Byte) (l : List Host.Cell) (k : Nat) (h : cellsWf l) : cellsWf (setCells l k vs) := by
  induction vs generalizing l k with
  | nil => exact h
  | cons v vs ih => exact ih _ _ (setCell_wf l k v h)

theorem getCell_setCells_other (vs : List Byte) (l : List Host.Cell) (j k : Nat) (h : j < k ∨ k + vs.length ≤ j) :
    getCell (setCells l k vs) j = getCell l j := by
  induction vs generalizing l k with
  | nil => rfl
  | cons v vs ih =>
    simp only [List.length_cons] at h
    rw [setCells, ih _ _ (by omega), getCell_setCell_other _ _ _ _ (by omega)]

theorem getCell_setCells_same (vs : List Byte) (l : List Host.Cell) (k n : Nat) (v : Byte) (h : cellsWf l)
    (hv : vs[n]? = some v) : getCell (setCells l k vs) (k + n) = v := by
  induction vs generalizing l k n with
  | nil => simp at hv
  | cons w vs ih =>
    cases n with
    | zero =>
      simp only [List.getElem?_cons_zero, Option.some.injEq] at hv
      subst hv
      rw [setCells, Nat.add_zero, getCell_setCells_other _ _ _ _ (by omega)]
      exact getCell_setCell_same _ _ _ h
    | succ n =>
      simp only [List.getElem?_cons_succ] at hv
      rw [setCells, show k + (n + 1) = (k + 1) + n by omega]
      exact ih _ _ _ (setCell_wf l k w h) hv

/-! ### Memory -/

@[simp] theorem setCell_bindings (m : Memory) (k : Nat) (v : Byte) : (m.setCell k v).bindings = m.bindings := rfl

@[simp] theorem setCell_cells (m : Memory) (k : Nat) (v : Byte) : (m.setCell k v).cells = setCell m.cells k v := rfl

@[simp] theorem setCell_region (m : Memory) (k : Nat) (v : Byte) (a : Word) : (m.setCell k v).region a = m.region a := rfl

theorem setCell_mem_wf (m : Memory) (k : Nat) (v : Byte) (h : m.wf) : (m.setCell k v).wf :=
  ⟨setCell_wf m.cells k v h.1, h.2⟩

/-- What a byte of memory reads as after one cell is written. -/
theorem peek_setCell (m : Memory) (k : Nat) (v : Byte) (b : Word) (h : m.wf) :
    (m.setCell k v).peek b = if m.backingCell b = some k then some v else m.peek b := by
  unfold Memory.peek Memory.backingCell
  rw [setCell_region]
  cases m.region b with
  | store id base w =>
    by_cases hk : cellOf id (b.toNat - base) = k
    · subst hk
      simp [getCell_setCell_same _ _ _ h.1]
    · simp [hk, getCell_setCell_other _ _ _ _ hk]
  | device d => simp
  | unmapped => simp

/-- A fresh number is above every number in use. -/
theorem lt_freshNumber (used : Region → Option Nat) (l : List Binding) (b : Binding) (k : Nat) (hb : b ∈ l)
    (hk : used b.region = some k) : k < freshNumber used l := by
  induction l with
  | nil => cases hb
  | cons c rest ih =>
    rcases List.mem_cons.mp hb with rfl | hb
    · simp only [freshNumber, hk]
      omega
    · have := ih hb
      unfold freshNumber
      split <;> omega

/-- No binding refers to the array that `map` takes. -/
theorem freshArray_new (l : List Binding) (b : Binding) (base : Nat) (w : Bool) (hb : b ∈ l) :
    b.region ≠ .store (freshArray l) base w := fun h =>
  absurd (lt_freshNumber Region.array? l b (freshArray l) hb (by rw [h]; rfl)) (Nat.lt_irrefl _)

/-- No binding refers to the handler that `map` takes. -/
theorem freshHandler_new (l : List Binding) (b : Binding) (hb : b ∈ l) : b.region ≠ .device (freshHandler l) := fun h =>
  absurd (lt_freshNumber Region.handler? l b (freshHandler l) hb (by rw [h]; rfl)) (Nat.lt_irrefl _)

theorem constructed_wf (p : Params) : (Memory.constructed p).wf := by
  refine ⟨⟨List.Pairwise.nil, by simp [Memory.constructed]⟩, ?_⟩
  simp [Memory.constructed, Binding.wf, Region.fits]

theorem bindBytes_wf (m : Memory) (lo hi : Nat) (bytes : List Byte) (w : Bool) (h : m.wf) (hr : lo ≤ hi ∧ hi ≤ 0xFFFF) :
    (m.bindBytes lo hi bytes w).wf := by
  refine ⟨setCells_wf _ _ _ h.1, fun b hb => ?_⟩
  rcases List.mem_cons.mp hb with rfl | hb
  · exact ⟨hr.1, hr.2, by simp [Region.fits]⟩
  · exact h.2 b hb

theorem bindDevice_wf (m : Memory) (lo hi : Nat) (h : m.wf) (hr : lo ≤ hi ∧ hi ≤ 0xFFFF) : (m.bindDevice lo hi).wf := by
  refine ⟨h.1, fun b hb => ?_⟩
  rcases List.mem_cons.mp hb with rfl | hb
  · exact ⟨hr.1, hr.2, rfl⟩
  · exact h.2 b hb

theorem placeBytes_wf (vs : List Byte) (a : Word) (m : Memory) (h : m.wf) : (placeBytes a vs m).wf := by
  induction vs generalizing a m with
  | nil => exact h
  | cons v vs ih => exact ih _ _ (bindBytes_wf m _ _ _ _ h ⟨le_refl _, by omega⟩)

end Sys2Proof.Machine
end

