-- ==== Sys2Proof/Laws/Ops.lean ====
section
/-! SUPPORT. One lemma for each shared operation, saying everything it can do; later proofs cite these. -/

namespace Sys2Proof.Machine

open Sys2Proof

/-! ### The dispatcher -/

/-- A read changes nothing but the device log and the count of draws. -/
theorem memRead_frame (a : Word) (s : State) :
    (memRead a s).2 = { s with devLog := (memRead a s).2.devLog, draws := (memRead a s).2.draws } := by
  unfold memRead
  cases s.mem.region a <;> rfl

@[simp] theorem memRead_a (w : Word) (s : State) : (memRead w s).2.a = s.a := by rw [memRead_frame]
@[simp] theorem memRead_x (w : Word) (s : State) : (memRead w s).2.x = s.x := by rw [memRead_frame]
@[simp] theorem memRead_y (w : Word) (s : State) : (memRead w s).2.y = s.y := by rw [memRead_frame]
@[simp] theorem memRead_pc (w : Word) (s : State) : (memRead w s).2.pc = s.pc := by rw [memRead_frame]
@[simp] theorem memRead_sp (w : Word) (s : State) : (memRead w s).2.sp = s.sp := by rw [memRead_frame]
@[simp] theorem memRead_flags (w : Word) (s : State) : (memRead w s).2.flags = s.flags := by rw [memRead_frame]
@[simp] theorem memRead_ir (w : Word) (s : State) : (memRead w s).2.ir = s.ir := by rw [memRead_frame]
@[simp] theorem memRead_bus (w : Word) (s : State) : (memRead w s).2.bus = s.bus := by rw [memRead_frame]
@[simp] theorem memRead_halted (w : Word) (s : State) : (memRead w s).2.halted = s.halted := by rw [memRead_frame]
@[simp] theorem memRead_fault (w : Word) (s : State) : (memRead w s).2.fault = s.fault := by rw [memRead_frame]
@[simp] theorem memRead_mem (w : Word) (s : State) : (memRead w s).2.mem = s.mem := by rw [memRead_frame]
@[simp] theorem memRead_params (w : Word) (s : State) : (memRead w s).2.params = s.params := by rw [memRead_frame]

/-- A read of a byte that no device serves is that byte and changes nothing. -/
theorem memRead_of_peek {a : Word} {s : State} {v : Byte} (h : s.mem.peek a = some v) : memRead a s = (v, s) := by
  unfold Memory.peek at h
  unfold memRead
  cases hr : s.mem.region a with
  | store id base w => rw [hr] at h; simp only [Option.some.injEq] at h ⊢; rw [← h]
  | device d => rw [hr] at h; simp at h
  | unmapped => rw [hr] at h; simp only [Option.some.injEq] at h ⊢; rw [← h]

/-- A write changes nothing but memory and the device log. -/
theorem memWrite_frame (a : Word) (v : Byte) (s : State) :
    memWrite a v s = { s with mem := (memWrite a v s).mem, devLog := (memWrite a v s).devLog } := by
  unfold memWrite
  cases s.mem.region a with
  | store id base w => cases w <;> rfl
  | device d => rfl
  | unmapped => rfl

@[simp] theorem memWrite_a (w : Word) (v : Byte) (s : State) : (memWrite w v s).a = s.a := by rw [memWrite_frame]
@[simp] theorem memWrite_x (w : Word) (v : Byte) (s : State) : (memWrite w v s).x = s.x := by rw [memWrite_frame]
@[simp] theorem memWrite_y (w : Word) (v : Byte) (s : State) : (memWrite w v s).y = s.y := by rw [memWrite_frame]
@[simp] theorem memWrite_pc (w : Word) (v : Byte) (s : State) : (memWrite w v s).pc = s.pc := by rw [memWrite_frame]
@[simp] theorem memWrite_sp (w : Word) (v : Byte) (s : State) : (memWrite w v s).sp = s.sp := by rw [memWrite_frame]
@[simp] theorem memWrite_flags (w : Word) (v : Byte) (s : State) : (memWrite w v s).flags = s.flags := by rw [memWrite_frame]
@[simp] theorem memWrite_ir (w : Word) (v : Byte) (s : State) : (memWrite w v s).ir = s.ir := by rw [memWrite_frame]
@[simp] theorem memWrite_bus (w : Word) (v : Byte) (s : State) : (memWrite w v s).bus = s.bus := by rw [memWrite_frame]
@[simp] theorem memWrite_halted (w : Word) (v : Byte) (s : State) : (memWrite w v s).halted = s.halted := by rw [memWrite_frame]
@[simp] theorem memWrite_fault (w : Word) (v : Byte) (s : State) : (memWrite w v s).fault = s.fault := by rw [memWrite_frame]
@[simp] theorem memWrite_params (w : Word) (v : Byte) (s : State) : (memWrite w v s).params = s.params := by rw [memWrite_frame]
@[simp] theorem memWrite_draws (w : Word) (v : Byte) (s : State) : (memWrite w v s).draws = s.draws := by rw [memWrite_frame]

/-- What a write does to memory: one cell where the address is a writable store, else nothing. -/
theorem memWrite_mem (a : Word) (v : Byte) (s : State) :
    (memWrite a v s).mem = match s.mem.writtenCell a with | some k => s.mem.setCell k v | none => s.mem := by
  unfold memWrite Memory.writtenCell
  cases s.mem.region a with
  | store id base w => cases w <;> rfl
  | device d => rfl
  | unmapped => rfl

@[simp] theorem memWrite_bindings (a : Word) (v : Byte) (s : State) : (memWrite a v s).mem.bindings = s.mem.bindings := by
  rw [memWrite_mem]
  cases s.mem.writtenCell a <;> rfl

theorem memWrite_wf (a : Word) (v : Byte) (s : State) (h : s.mem.wf) : (memWrite a v s).mem.wf := by
  rw [memWrite_mem]
  cases s.mem.writtenCell a with
  | none => exact h
  | some k => exact setCell_mem_wf s.mem k v h

/-- What every byte of memory reads as after a write. -/
theorem peek_memWrite (a b : Word) (v : Byte) (s : State) (h : s.mem.wf) :
    (memWrite a v s).mem.peek b =
      if s.mem.writtenCell a ≠ none ∧ s.mem.backingCell b = s.mem.writtenCell a then some v else s.mem.peek b := by
  rw [memWrite_mem]
  cases hk : s.mem.writtenCell a with
  | none => simp
  | some k => simp [peek_setCell _ _ _ _ h]

/-- Two reads in a row change nothing but the device log and the count of draws. -/
theorem read16_frame (a : Word) (s : State) :
    (read16 a s).2 = { s with devLog := (read16 a s).2.devLog, draws := (read16 a s).2.draws } := by
  unfold read16
  rw [memRead_frame, memRead_frame a s]

theorem read16_of_peek {a : Word} {s : State} {lo hi : Byte} (hlo : s.mem.peek a = some lo)
    (hhi : s.mem.peek (a + 1#16) = some hi) : read16 a s = (wordOf hi lo, s) := by
  simp [read16, memRead_of_peek hlo, memRead_of_peek hhi]

/-! ### The stack -/

/-- Everything `push` can do. -/
theorem push_cases (a : Word) (v : Byte) (s : State) :
    (s.sp = 0x00#8 ∧ push a v s = .error (raiseFault .stackOverflow a s)) ∨
    (s.sp ≠ 0x00#8 ∧ push a v s = .ok ((memWrite (stackAddr s.sp) v s).setReg .sp (s.sp - 1#8))) := by
  by_cases h : s.sp = 0x00#8
  · exact .inl ⟨h, if_pos h⟩
  · exact .inr ⟨h, if_neg h⟩

/-- Everything `pop` can do. -/
theorem pop_cases (a : Word) (s : State) :
    (s.sp = 0xFF#8 ∧ pop a s = .error (raiseFault .stackUnderflow a s)) ∨
    (s.sp ≠ 0xFF#8 ∧ pop a s = .ok (memRead (stackAddr (s.sp + 1#8)) (s.setReg .sp (s.sp + 1#8)))) := by
  by_cases h : s.sp = 0xFF#8
  · exact .inl ⟨h, if_pos h⟩
  · exact .inr ⟨h, if_neg h⟩

/-! ### Fetching -/

/-- A fetch moves PC by one and changes nothing else but the device log and the count of draws. -/
theorem fetch_frame (s : State) :
    (fetch s).2 = { s with pc := s.pc + 1#16, devLog := (fetch s).2.devLog, draws := (fetch s).2.draws } := by
  unfold fetch
  simp only [State.setPc]
  rw [memRead_frame]

theorem fetch_of_peek {s : State} {v : Byte} (h : s.mem.peek s.pc = some v) : fetch s = (v, s.setPc (s.pc + 1#16)) := by
  simp [fetch, memRead_of_peek h]

/-- Everything an opcode fetch does: IR takes the byte, PC moves by one, BUS takes a free value. -/
theorem fetchOpcode_frame (s : State) :
    (fetchOpcode s).2 = { s with
      ir := (fetchOpcode s).1, pc := s.pc + 1#16, bus := Config.busValue s.draws
      devLog := (fetchOpcode s).2.devLog, draws := (fetchOpcode s).2.draws } := by
  have h := fetch_frame s.drawBus
  simp only [fetchOpcode]
  rw [h]
  rfl

/-- Fetching an instruction changes IR, PC and BUS, and what the devices see; IR is the byte the opcode fetch read. -/
theorem fetchInstr_frame (s : State) :
    (fetchInstr s).2 = { s with
      ir := (fetchOpcode s).1, pc := (fetchInstr s).2.pc, bus := Config.busValue s.draws
      devLog := (fetchInstr s).2.devLog, draws := (fetchInstr s).2.draws } := by
  have hc : (fetchInstr s).2 = (fetchOpcode s).2 ∨ (fetchInstr s).2 = (fetch (fetchOpcode s).2).2 ∨
      (fetchInstr s).2 = (fetch (fetch (fetchOpcode s).2).2).2 := by
    unfold fetchInstr
    simp only
    split
    · exact .inl rfl
    · exact .inr (.inl rfl)
    · exact .inr (.inr rfl)
  have ho := fetchOpcode_frame s
  have h1 := fetch_frame (fetchOpcode s).2
  rcases hc with h | h | h <;> rw [h]
  · rw [ho]
  · rw [h1, ho]
  · rw [fetch_frame (fetch (fetchOpcode s).2).2, h1, ho]

/-! ### The resolver -/

theorem readPointer_frame (p : Byte) (hiAt : Word) (s : State) :
    (readPointer p hiAt s).2 =
      { s with devLog := (readPointer p hiAt s).2.devLog, draws := (readPointer p hiAt s).2.draws } := by
  unfold readPointer
  rw [memRead_frame, memRead_frame (zext16 p) s]

theorem effAddr_frame (m : MemForm) (s : State) :
    (effAddr m s).2 = { s with devLog := (effAddr m s).2.devLog, draws := (effAddr m s).2.draws } := by
  cases m with
  | ind w => exact read16_frame w s
  | izx b => exact readPointer_frame _ _ s
  | izy b => exact readPointer_frame _ _ s
  | zp b => rfl
  | zpx b => rfl
  | zpy b => rfl
  | abs w => rfl
  | absx w => rfl
  | absy w => rfl

/-- Resolving a memory operand changes nothing but the device log and the count of draws. -/
theorem resolveMem_frame (m : MemForm) (s : State) :
    (resolveMem m s).st = { s with devLog := (resolveMem m s).st.devLog, draws := (resolveMem m s).st.draws } := by
  unfold resolveMem
  simp only
  rw [memRead_frame, effAddr_frame]

@[simp] theorem resolveMem_a (m : MemForm) (s : State) : (resolveMem m s).st.a = s.a := by rw [resolveMem_frame]
@[simp] theorem resolveMem_x (m : MemForm) (s : State) : (resolveMem m s).st.x = s.x := by rw [resolveMem_frame]
@[simp] theorem resolveMem_y (m : MemForm) (s : State) : (resolveMem m s).st.y = s.y := by rw [resolveMem_frame]
@[simp] theorem resolveMem_pc (m : MemForm) (s : State) : (resolveMem m s).st.pc = s.pc := by rw [resolveMem_frame]
@[simp] theorem resolveMem_sp (m : MemForm) (s : State) : (resolveMem m s).st.sp = s.sp := by rw [resolveMem_frame]
@[simp] theorem resolveMem_flags (m : MemForm) (s : State) : (resolveMem m s).st.flags = s.flags := by rw [resolveMem_frame]
@[simp] theorem resolveMem_ir (m : MemForm) (s : State) : (resolveMem m s).st.ir = s.ir := by rw [resolveMem_frame]
@[simp] theorem resolveMem_bus (m : MemForm) (s : State) : (resolveMem m s).st.bus = s.bus := by rw [resolveMem_frame]
@[simp] theorem resolveMem_halted (m : MemForm) (s : State) : (resolveMem m s).st.halted = s.halted := by rw [resolveMem_frame]
@[simp] theorem resolveMem_fault (m : MemForm) (s : State) : (resolveMem m s).st.fault = s.fault := by rw [resolveMem_frame]
@[simp] theorem resolveMem_mem (m : MemForm) (s : State) : (resolveMem m s).st.mem = s.mem := by rw [resolveMem_frame]
@[simp] theorem resolveMem_params (m : MemForm) (s : State) : (resolveMem m s).st.params = s.params := by rw [resolveMem_frame]

end Sys2Proof.Machine
end

