-- ==== Sys2Proof/Laws/PerInstr.lean ====
section
/-! SUPPORT. Statements made for each instruction as syntax. Family `Encoding` (30_encoding.md R53, R55, R59): the opcode
byte alone gives the decoder the instruction's mnemonic, mode and number of operand bytes, and the encoding has just that length. -/

namespace Sys2Proof.Laws.Encoding

open Sys2Proof

/-- What the opcode byte of `i` tells the decoder is what `i` is. -/
def Statement (i : Instr) : Prop :=
  i.wellFormed = true →
    (build i.opcode 0 0).mnemonic = i.mnemonic ∧ (build i.opcode 0 0).mode = i.mode ∧
    operandCount i.opcode = i.form.bytes.length ∧ i.length = (encode i).length

/-- It is enough that the opcode `op`, with zero operand bytes, is built into a row `j` of the same mnemonic and mode. -/
theorem of_build (i j : Instr) (op : Byte) (ho : i.opcode = op) (h : build op 0 0 = j) (hm : j.mnemonic = i.mnemonic)
    (hd : j.mode = i.mode) (hb : i.mode.operandBytes = i.form.bytes.length) (hl : i.length = (encode i).length) : Statement i := by
  intro _
  unfold operandCount
  rw [ho, h, hd]
  exact ⟨hm, rfl, hb, hl⟩

theorem ldaImm (b : Byte) : Statement (.ldaImm b) := of_build _ (.ldaImm 0) 0xA9#8 rfl rfl rfl rfl rfl rfl
theorem ldaZp (b : Byte) : Statement (.ldaZp b) := of_build _ (.ldaZp 0) 0xA5#8 rfl rfl rfl rfl rfl rfl
theorem ldaZpx (b : Byte) : Statement (.ldaZpx b) := of_build _ (.ldaZpx 0) 0xB5#8 rfl rfl rfl rfl rfl rfl
theorem ldaAbs (w : Word) : Statement (.ldaAbs w) := of_build _ (.ldaAbs 0) 0xAD#8 rfl rfl rfl rfl rfl rfl
theorem ldaAbsx (w : Word) : Statement (.ldaAbsx w) := of_build _ (.ldaAbsx 0) 0xBD#8 rfl rfl rfl rfl rfl rfl
theorem ldaAbsy (w : Word) : Statement (.ldaAbsy w) := of_build _ (.ldaAbsy 0) 0xB9#8 rfl rfl rfl rfl rfl rfl
theorem ldaIzx (b : Byte) : Statement (.ldaIzx b) := of_build _ (.ldaIzx 0) 0xA1#8 rfl rfl rfl rfl rfl rfl
theorem ldaIzy (b : Byte) : Statement (.ldaIzy b) := of_build _ (.ldaIzy 0) 0xB1#8 rfl rfl rfl rfl rfl rfl
theorem ldxImm (b : Byte) : Statement (.ldxImm b) := of_build _ (.ldxImm 0) 0xA2#8 rfl rfl rfl rfl rfl rfl
theorem ldxZp (b : Byte) : Statement (.ldxZp b) := of_build _ (.ldxZp 0) 0xA6#8 rfl rfl rfl rfl rfl rfl
theorem ldxZpy (b : Byte) : Statement (.ldxZpy b) := of_build _ (.ldxZpy 0) 0xB6#8 rfl rfl rfl rfl rfl rfl
theorem ldxAbs (w : Word) : Statement (.ldxAbs w) := of_build _ (.ldxAbs 0) 0xAE#8 rfl rfl rfl rfl rfl rfl
theorem ldxAbsy (w : Word) : Statement (.ldxAbsy w) := of_build _ (.ldxAbsy 0) 0xBE#8 rfl rfl rfl rfl rfl rfl
theorem ldyImm (b : Byte) : Statement (.ldyImm b) := of_build _ (.ldyImm 0) 0xA0#8 rfl rfl rfl rfl rfl rfl
theorem ldyZp (b : Byte) : Statement (.ldyZp b) := of_build _ (.ldyZp 0) 0xA4#8 rfl rfl rfl rfl rfl rfl
theorem ldyZpx (b : Byte) : Statement (.ldyZpx b) := of_build _ (.ldyZpx 0) 0xB4#8 rfl rfl rfl rfl rfl rfl
theorem ldyAbs (w : Word) : Statement (.ldyAbs w) := of_build _ (.ldyAbs 0) 0xAC#8 rfl rfl rfl rfl rfl rfl
theorem ldyAbsx (w : Word) : Statement (.ldyAbsx w) := of_build _ (.ldyAbsx 0) 0xBC#8 rfl rfl rfl rfl rfl rfl
theorem staZp (b : Byte) : Statement (.staZp b) := of_build _ (.staZp 0) 0x85#8 rfl rfl rfl rfl rfl rfl
theorem staZpx (b : Byte) : Statement (.staZpx b) := of_build _ (.staZpx 0) 0x95#8 rfl rfl rfl rfl rfl rfl
theorem staAbs (w : Word) : Statement (.staAbs w) := of_build _ (.staAbs 0) 0x8D#8 rfl rfl rfl rfl rfl rfl
theorem staAbsx (w : Word) : Statement (.staAbsx w) := of_build _ (.staAbsx 0) 0x9D#8 rfl rfl rfl rfl rfl rfl
theorem staAbsy (w : Word) : Statement (.staAbsy w) := of_build _ (.staAbsy 0) 0x99#8 rfl rfl rfl rfl rfl rfl
theorem staIzx (b : Byte) : Statement (.staIzx b) := of_build _ (.staIzx 0) 0x81#8 rfl rfl rfl rfl rfl rfl
theorem staIzy (b : Byte) : Statement (.staIzy b) := of_build _ (.staIzy 0) 0x91#8 rfl rfl rfl rfl rfl rfl
theorem stxZp (b : Byte) : Statement (.stxZp b) := of_build _ (.stxZp 0) 0x86#8 rfl rfl rfl rfl rfl rfl
theorem stxZpy (b : Byte) : Statement (.stxZpy b) := of_build _ (.stxZpy 0) 0x96#8 rfl rfl rfl rfl rfl rfl
theorem stxAbs (w : Word) : Statement (.stxAbs w) := of_build _ (.stxAbs 0) 0x8E#8 rfl rfl rfl rfl rfl rfl
theorem styZp (b : Byte) : Statement (.styZp b) := of_build _ (.styZp 0) 0x84#8 rfl rfl rfl rfl rfl rfl
theorem styZpx (b : Byte) : Statement (.styZpx b) := of_build _ (.styZpx 0) 0x94#8 rfl rfl rfl rfl rfl rfl
theorem styAbs (w : Word) : Statement (.styAbs w) := of_build _ (.styAbs 0) 0x8C#8 rfl rfl rfl rfl rfl rfl
theorem tax : Statement (.tax) := of_build _ (.tax) 0xAA#8 rfl rfl rfl rfl rfl rfl
theorem tay : Statement (.tay) := of_build _ (.tay) 0xA8#8 rfl rfl rfl rfl rfl rfl
theorem txa : Statement (.txa) := of_build _ (.txa) 0x8A#8 rfl rfl rfl rfl rfl rfl
theorem tya : Statement (.tya) := of_build _ (.tya) 0x98#8 rfl rfl rfl rfl rfl rfl
theorem tsx : Statement (.tsx) := of_build _ (.tsx) 0xBA#8 rfl rfl rfl rfl rfl rfl
theorem txs : Statement (.txs) := of_build _ (.txs) 0x9A#8 rfl rfl rfl rfl rfl rfl
theorem pha : Statement (.pha) := of_build _ (.pha) 0x48#8 rfl rfl rfl rfl rfl rfl
theorem pla : Statement (.pla) := of_build _ (.pla) 0x68#8 rfl rfl rfl rfl rfl rfl
theorem php : Statement (.php) := of_build _ (.php) 0x08#8 rfl rfl rfl rfl rfl rfl
theorem plp : Statement (.plp) := of_build _ (.plp) 0x28#8 rfl rfl rfl rfl rfl rfl
theorem oraImm (b : Byte) : Statement (.oraImm b) := of_build _ (.oraImm 0) 0x09#8 rfl rfl rfl rfl rfl rfl
theorem oraZp (b : Byte) : Statement (.oraZp b) := of_build _ (.oraZp 0) 0x05#8 rfl rfl rfl rfl rfl rfl
theorem oraZpx (b : Byte) : Statement (.oraZpx b) := of_build _ (.oraZpx 0) 0x15#8 rfl rfl rfl rfl rfl rfl
theorem oraAbs (w : Word) : Statement (.oraAbs w) := of_build _ (.oraAbs 0) 0x0D#8 rfl rfl rfl rfl rfl rfl
theorem oraAbsx (w : Word) : Statement (.oraAbsx w) := of_build _ (.oraAbsx 0) 0x1D#8 rfl rfl rfl rfl rfl rfl
theorem oraAbsy (w : Word) : Statement (.oraAbsy w) := of_build _ (.oraAbsy 0) 0x19#8 rfl rfl rfl rfl rfl rfl
theorem oraIzx (b : Byte) : Statement (.oraIzx b) := of_build _ (.oraIzx 0) 0x01#8 rfl rfl rfl rfl rfl rfl
theorem oraIzy (b : Byte) : Statement (.oraIzy b) := of_build _ (.oraIzy 0) 0x11#8 rfl rfl rfl rfl rfl rfl
theorem andImm (b : Byte) : Statement (.andImm b) := of_build _ (.andImm 0) 0x29#8 rfl rfl rfl rfl rfl rfl
theorem andZp (b : Byte) : Statement (.andZp b) := of_build _ (.andZp 0) 0x25#8 rfl rfl rfl rfl rfl rfl
theorem andZpx (b : Byte) : Statement (.andZpx b) := of_build _ (.andZpx 0) 0x35#8 rfl rfl rfl rfl rfl rfl
theorem andAbs (w : Word) : Statement (.andAbs w) := of_build _ (.andAbs 0) 0x2D#8 rfl rfl rfl rfl rfl rfl
theorem andAbsx (w : Word) : Statement (.andAbsx w) := of_build _ (.andAbsx 0) 0x3D#8 rfl rfl rfl rfl rfl rfl
theorem andAbsy (w : Word) : Statement (.andAbsy w) := of_build _ (.andAbsy 0) 0x39#8 rfl rfl rfl rfl rfl rfl
theorem andIzx (b : Byte) : Statement (.andIzx b) := of_build _ (.andIzx 0) 0x21#8 rfl rfl rfl rfl rfl rfl
theorem andIzy (b : Byte) : Statement (.andIzy b) := of_build _ (.andIzy 0) 0x31#8 rfl rfl rfl rfl rfl rfl
theorem eorImm (b : Byte) : Statement (.eorImm b) := of_build _ (.eorImm 0) 0x49#8 rfl rfl rfl rfl rfl rfl
theorem eorZp (b : Byte) : Statement (.eorZp b) := of_build _ (.eorZp 0) 0x45#8 rfl rfl rfl rfl rfl rfl
theorem eorZpx (b : Byte) : Statement (.eorZpx b) := of_build _ (.eorZpx 0) 0x55#8 rfl rfl rfl rfl rfl rfl
theorem eorAbs (w : Word) : Statement (.eorAbs w) := of_build _ (.eorAbs 0) 0x4D#8 rfl rfl rfl rfl rfl rfl
theorem eorAbsx (w : Word) : Statement (.eorAbsx w) := of_build _ (.eorAbsx 0) 0x5D#8 rfl rfl rfl rfl rfl rfl
theorem eorAbsy (w : Word) : Statement (.eorAbsy w) := of_build _ (.eorAbsy 0) 0x59#8 rfl rfl rfl rfl rfl rfl
theorem eorIzx (b : Byte) : Statement (.eorIzx b) := of_build _ (.eorIzx 0) 0x41#8 rfl rfl rfl rfl rfl rfl
theorem eorIzy (b : Byte) : Statement (.eorIzy b) := of_build _ (.eorIzy 0) 0x51#8 rfl rfl rfl rfl rfl rfl
theorem adcImm (b : Byte) : Statement (.adcImm b) := of_build _ (.adcImm 0) 0x69#8 rfl rfl rfl rfl rfl rfl
theorem adcZp (b : Byte) : Statement (.adcZp b) := of_build _ (.adcZp 0) 0x65#8 rfl rfl rfl rfl rfl rfl
theorem adcZpx (b : Byte) : Statement (.adcZpx b) := of_build _ (.adcZpx 0) 0x75#8 rfl rfl rfl rfl rfl rfl
theorem adcAbs (w : Word) : Statement (.adcAbs w) := of_build _ (.adcAbs 0) 0x6D#8 rfl rfl rfl rfl rfl rfl
theorem adcAbsx (w : Word) : Statement (.adcAbsx w) := of_build _ (.adcAbsx 0) 0x7D#8 rfl rfl rfl rfl rfl rfl
theorem adcAbsy (w : Word) : Statement (.adcAbsy w) := of_build _ (.adcAbsy 0) 0x79#8 rfl rfl rfl rfl rfl rfl
theorem adcIzx (b : Byte) : Statement (.adcIzx b) := of_build _ (.adcIzx 0) 0x61#8 rfl rfl rfl rfl rfl rfl
theorem adcIzy (b : Byte) : Statement (.adcIzy b) := of_build _ (.adcIzy 0) 0x71#8 rfl rfl rfl rfl rfl rfl
theorem sbcImm (b : Byte) : Statement (.sbcImm b) := of_build _ (.sbcImm 0) 0xE9#8 rfl rfl rfl rfl rfl rfl
theorem sbcZp (b : Byte) : Statement (.sbcZp b) := of_build _ (.sbcZp 0) 0xE5#8 rfl rfl rfl rfl rfl rfl
theorem sbcZpx (b : Byte) : Statement (.sbcZpx b) := of_build _ (.sbcZpx 0) 0xF5#8 rfl rfl rfl rfl rfl rfl
theorem sbcAbs (w : Word) : Statement (.sbcAbs w) := of_build _ (.sbcAbs 0) 0xED#8 rfl rfl rfl rfl rfl rfl
theorem sbcAbsx (w : Word) : Statement (.sbcAbsx w) := of_build _ (.sbcAbsx 0) 0xFD#8 rfl rfl rfl rfl rfl rfl
theorem sbcAbsy (w : Word) : Statement (.sbcAbsy w) := of_build _ (.sbcAbsy 0) 0xF9#8 rfl rfl rfl rfl rfl rfl
theorem sbcIzx (b : Byte) : Statement (.sbcIzx b) := of_build _ (.sbcIzx 0) 0xE1#8 rfl rfl rfl rfl rfl rfl
theorem sbcIzy (b : Byte) : Statement (.sbcIzy b) := of_build _ (.sbcIzy 0) 0xF1#8 rfl rfl rfl rfl rfl rfl
theorem cmpImm (b : Byte) : Statement (.cmpImm b) := of_build _ (.cmpImm 0) 0xC9#8 rfl rfl rfl rfl rfl rfl
theorem cmpZp (b : Byte) : Statement (.cmpZp b) := of_build _ (.cmpZp 0) 0xC5#8 rfl rfl rfl rfl rfl rfl
theorem cmpZpx (b : Byte) : Statement (.cmpZpx b) := of_build _ (.cmpZpx 0) 0xD5#8 rfl rfl rfl rfl rfl rfl
theorem cmpAbs (w : Word) : Statement (.cmpAbs w) := of_build _ (.cmpAbs 0) 0xCD#8 rfl rfl rfl rfl rfl rfl
theorem cmpAbsx (w : Word) : Statement (.cmpAbsx w) := of_build _ (.cmpAbsx 0) 0xDD#8 rfl rfl rfl rfl rfl rfl
theorem cmpAbsy (w : Word) : Statement (.cmpAbsy w) := of_build _ (.cmpAbsy 0) 0xD9#8 rfl rfl rfl rfl rfl rfl
theorem cmpIzx (b : Byte) : Statement (.cmpIzx b) := of_build _ (.cmpIzx 0) 0xC1#8 rfl rfl rfl rfl rfl rfl
theorem cmpIzy (b : Byte) : Statement (.cmpIzy b) := of_build _ (.cmpIzy 0) 0xD1#8 rfl rfl rfl rfl rfl rfl
theorem cpxImm (b : Byte) : Statement (.cpxImm b) := of_build _ (.cpxImm 0) 0xE0#8 rfl rfl rfl rfl rfl rfl
theorem cpxZp (b : Byte) : Statement (.cpxZp b) := of_build _ (.cpxZp 0) 0xE4#8 rfl rfl rfl rfl rfl rfl
theorem cpxAbs (w : Word) : Statement (.cpxAbs w) := of_build _ (.cpxAbs 0) 0xEC#8 rfl rfl rfl rfl rfl rfl
theorem cpyImm (b : Byte) : Statement (.cpyImm b) := of_build _ (.cpyImm 0) 0xC0#8 rfl rfl rfl rfl rfl rfl
theorem cpyZp (b : Byte) : Statement (.cpyZp b) := of_build _ (.cpyZp 0) 0xC4#8 rfl rfl rfl rfl rfl rfl
theorem cpyAbs (w : Word) : Statement (.cpyAbs w) := of_build _ (.cpyAbs 0) 0xCC#8 rfl rfl rfl rfl rfl rfl
theorem bitZp (b : Byte) : Statement (.bitZp b) := of_build _ (.bitZp 0) 0x24#8 rfl rfl rfl rfl rfl rfl
theorem bitAbs (w : Word) : Statement (.bitAbs w) := of_build _ (.bitAbs 0) 0x2C#8 rfl rfl rfl rfl rfl rfl
theorem incZp (b : Byte) : Statement (.incZp b) := of_build _ (.incZp 0) 0xE6#8 rfl rfl rfl rfl rfl rfl
theorem incZpx (b : Byte) : Statement (.incZpx b) := of_build _ (.incZpx 0) 0xF6#8 rfl rfl rfl rfl rfl rfl
theorem incAbs (w : Word) : Statement (.incAbs w) := of_build _ (.incAbs 0) 0xEE#8 rfl rfl rfl rfl rfl rfl
theorem incAbsx (w : Word) : Statement (.incAbsx w) := of_build _ (.incAbsx 0) 0xFE#8 rfl rfl rfl rfl rfl rfl
theorem decZp (b : Byte) : Statement (.decZp b) := of_build _ (.decZp 0) 0xC6#8 rfl rfl rfl rfl rfl rfl
theorem decZpx (b : Byte) : Statement (.decZpx b) := of_build _ (.decZpx 0) 0xD6#8 rfl rfl rfl rfl rfl rfl
theorem decAbs (w : Word) : Statement (.decAbs w) := of_build _ (.decAbs 0) 0xCE#8 rfl rfl rfl rfl rfl rfl
theorem decAbsx (w : Word) : Statement (.decAbsx w) := of_build _ (.decAbsx 0) 0xDE#8 rfl rfl rfl rfl rfl rfl
theorem inx : Statement (.inx) := of_build _ (.inx) 0xE8#8 rfl rfl rfl rfl rfl rfl
theorem dex : Statement (.dex) := of_build _ (.dex) 0xCA#8 rfl rfl rfl rfl rfl rfl
theorem iny : Statement (.iny) := of_build _ (.iny) 0xC8#8 rfl rfl rfl rfl rfl rfl
theorem dey : Statement (.dey) := of_build _ (.dey) 0x88#8 rfl rfl rfl rfl rfl rfl
theorem aslAcc : Statement (.aslAcc) := of_build _ (.aslAcc) 0x0A#8 rfl rfl rfl rfl rfl rfl
theorem aslZp (b : Byte) : Statement (.aslZp b) := of_build _ (.aslZp 0) 0x06#8 rfl rfl rfl rfl rfl rfl
theorem aslZpx (b : Byte) : Statement (.aslZpx b) := of_build _ (.aslZpx 0) 0x16#8 rfl rfl rfl rfl rfl rfl
theorem aslAbs (w : Word) : Statement (.aslAbs w) := of_build _ (.aslAbs 0) 0x0E#8 rfl rfl rfl rfl rfl rfl
theorem aslAbsx (w : Word) : Statement (.aslAbsx w) := of_build _ (.aslAbsx 0) 0x1E#8 rfl rfl rfl rfl rfl rfl
theorem lsrAcc : Statement (.lsrAcc) := of_build _ (.lsrAcc) 0x4A#8 rfl rfl rfl rfl rfl rfl
theorem lsrZp (b : Byte) : Statement (.lsrZp b) := of_build _ (.lsrZp 0) 0x46#8 rfl rfl rfl rfl rfl rfl
theorem lsrZpx (b : Byte) : Statement (.lsrZpx b) := of_build _ (.lsrZpx 0) 0x56#8 rfl rfl rfl rfl rfl rfl
theorem lsrAbs (w : Word) : Statement (.lsrAbs w) := of_build _ (.lsrAbs 0) 0x4E#8 rfl rfl rfl rfl rfl rfl
theorem lsrAbsx (w : Word) : Statement (.lsrAbsx w) := of_build _ (.lsrAbsx 0) 0x5E#8 rfl rfl rfl rfl rfl rfl
theorem rolAcc : Statement (.rolAcc) := of_build _ (.rolAcc) 0x2A#8 rfl rfl rfl rfl rfl rfl
theorem rolZp (b : Byte) : Statement (.rolZp b) := of_build _ (.rolZp 0) 0x26#8 rfl rfl rfl rfl rfl rfl
theorem rolZpx (b : Byte) : Statement (.rolZpx b) := of_build _ (.rolZpx 0) 0x36#8 rfl rfl rfl rfl rfl rfl
theorem rolAbs (w : Word) : Statement (.rolAbs w) := of_build _ (.rolAbs 0) 0x2E#8 rfl rfl rfl rfl rfl rfl
theorem rolAbsx (w : Word) : Statement (.rolAbsx w) := of_build _ (.rolAbsx 0) 0x3E#8 rfl rfl rfl rfl rfl rfl
theorem rorAcc : Statement (.rorAcc) := of_build _ (.rorAcc) 0x6A#8 rfl rfl rfl rfl rfl rfl
theorem rorZp (b : Byte) : Statement (.rorZp b) := of_build _ (.rorZp 0) 0x66#8 rfl rfl rfl rfl rfl rfl
theorem rorZpx (b : Byte) : Statement (.rorZpx b) := of_build _ (.rorZpx 0) 0x76#8 rfl rfl rfl rfl rfl rfl
theorem rorAbs (w : Word) : Statement (.rorAbs w) := of_build _ (.rorAbs 0) 0x6E#8 rfl rfl rfl rfl rfl rfl
theorem rorAbsx (w : Word) : Statement (.rorAbsx w) := of_build _ (.rorAbsx 0) 0x7E#8 rfl rfl rfl rfl rfl rfl
theorem bpl (d : Byte) : Statement (.bpl d) := of_build _ (.bpl 0) 0x10#8 rfl rfl rfl rfl rfl rfl
theorem bmi (d : Byte) : Statement (.bmi d) := of_build _ (.bmi 0) 0x30#8 rfl rfl rfl rfl rfl rfl
theorem bvc (d : Byte) : Statement (.bvc d) := of_build _ (.bvc 0) 0x50#8 rfl rfl rfl rfl rfl rfl
theorem bvs (d : Byte) : Statement (.bvs d) := of_build _ (.bvs 0) 0x70#8 rfl rfl rfl rfl rfl rfl
theorem bcc (d : Byte) : Statement (.bcc d) := of_build _ (.bcc 0) 0x90#8 rfl rfl rfl rfl rfl rfl
theorem bcs (d : Byte) : Statement (.bcs d) := of_build _ (.bcs 0) 0xB0#8 rfl rfl rfl rfl rfl rfl
theorem bne (d : Byte) : Statement (.bne d) := of_build _ (.bne 0) 0xD0#8 rfl rfl rfl rfl rfl rfl
theorem beq (d : Byte) : Statement (.beq d) := of_build _ (.beq 0) 0xF0#8 rfl rfl rfl rfl rfl rfl
theorem jmpAbs (w : Word) : Statement (.jmpAbs w) := of_build _ (.jmpAbs 0) 0x4C#8 rfl rfl rfl rfl rfl rfl
theorem jmpInd (w : Word) : Statement (.jmpInd w) := of_build _ (.jmpInd 0) 0x6C#8 rfl rfl rfl rfl rfl rfl
theorem jsrAbs (w : Word) : Statement (.jsrAbs w) := of_build _ (.jsrAbs 0) 0x20#8 rfl rfl rfl rfl rfl rfl
theorem rts : Statement (.rts) := of_build _ (.rts) 0x60#8 rfl rfl rfl rfl rfl rfl
theorem brk : Statement (.brk) := of_build _ (.brk) 0x00#8 rfl rfl rfl rfl rfl rfl
theorem rti : Statement (.rti) := of_build _ (.rti) 0x40#8 rfl rfl rfl rfl rfl rfl
theorem clc : Statement (.clc) := of_build _ (.clc) 0x18#8 rfl rfl rfl rfl rfl rfl
theorem sec : Statement (.sec) := of_build _ (.sec) 0x38#8 rfl rfl rfl rfl rfl rfl
theorem cli : Statement (.cli) := of_build _ (.cli) 0x58#8 rfl rfl rfl rfl rfl rfl
theorem sei : Statement (.sei) := of_build _ (.sei) 0x78#8 rfl rfl rfl rfl rfl rfl
theorem clv : Statement (.clv) := of_build _ (.clv) 0xB8#8 rfl rfl rfl rfl rfl rfl
theorem cld : Statement (.cld) := of_build _ (.cld) 0xD8#8 rfl rfl rfl rfl rfl rfl
theorem sed : Statement (.sed) := of_build _ (.sed) 0xF8#8 rfl rfl rfl rfl rfl rfl
theorem nop : Statement (.nop) := of_build _ (.nop) 0xEA#8 rfl rfl rfl rfl rfl rfl
theorem hlt : Statement (.hlt) := of_build _ (.hlt) 0x02#8 rfl rfl rfl rfl rfl rfl

theorem illegal (op : Byte) : Statement (.illegal op) := by
  intro hw
  have h : ∀ op : Byte, isIllegalByte op = true → build op 0 0 = .illegal op := by decide
  exact of_build _ (.illegal op) op rfl (h op hw) rfl rfl rfl rfl hw

end Sys2Proof.Laws.Encoding
end

