-- ==== Sys2Proof/Laws/Vocabulary.lean ====
section
/-! SUPPORT. The model's operations in the words of the statements, and what a read or a write depends on. -/

namespace Sys2Proof.Machine

open Sys2Proof

/-! ### The words of the statements -/

theorem setNZ_eq_nzOf (f : Flags) (v : Byte) : f.setNZ v = nzOf f v := by
  unfold Flags.setNZ nzOf
  congr 1
  · revert v; decide
  · revert v; decide

theorem stackAddr_eq_stackCell (sp : Byte) : stackAddr sp = stackCell sp := by revert sp; decide

theorem wordOf_eq_joined (hi lo : Byte) : wordOf hi lo = joined hi lo := by
  apply BitVec.eq_of_toNat_eq
  have := hi.isLt
  have := lo.isLt
  simp only [wordOf_toNat, joined, BitVec.toNat_ofNat]
  omega

theorem zext16_eq_ofNat (b : Byte) : zext16 b = BitVec.ofNat 16 b.toNat := by
  apply BitVec.eq_of_toNat_eq
  have := b.isLt
  simp only [zext16_toNat, BitVec.toNat_ofNat]
  omega

theorem ptrHi_eq_ofNat (wrap : Bool) (p : Byte) :
    ptrHi wrap p = BitVec.ofNat 16 (if wrap then (p.toNat + 1) % 256 else p.toNat + 1) := by
  have := p.isLt
  apply BitVec.eq_of_toNat_eq
  cases wrap <;> simp [ptrHi, zext16_toNat]
  omega

theorem displacement_eq_toInt (d : Byte) : displacement d = d.toInt := by
  rw [BitVec.toInt_eq_toNat_cond]
  unfold displacement
  split <;> split <;> omega

/-- PC after a taken branch (44_control.md R107), in the spec's arithmetic. -/
theorem branchTarget_toNat (pc : Word) (d : Byte) :
    ((pc + sext16 d).toNat : Int) = ((pc.toNat : Int) + displacement d) % 65536 := by
  have h : ∀ d : Byte, ((sext16 d).toNat : Int) = displacement d % 65536 := by decide
  have := h d
  rw [BitVec.toNat_add]
  omega

/-- The compare (42_alu.md R86) with bit 7 of the difference written as arithmetic. -/
theorem compare_eq (f : Flags) (fromBit7 : Bool) (r v : Byte) :
    f.compare fromBit7 r v =
      { f with
        n := if fromBit7 then decide (128 ≤ ((r.toNat : Int) - v.toNat) % 256) else decide ((r.toNat : Int) - v.toNat < 0)
        z := decide ((r.toNat : Int) - v.toNat = 0)
        c := decide (0 ≤ (r.toNat : Int) - v.toNat) } := by
  simp only [Flags.compare]
  congr 1
  cases fromBit7
  · rfl
  · have h : ∀ x : Byte, x.getLsbD 7 = decide (128 ≤ x.toNat) := by decide
    simp only [if_true]
    rw [h, BitVec.toNat_ofInt]
    congr 1
    apply propext
    omega

/-! ### A write and a resolve in those words -/

theorem wrote_memWrite (a : Word) (v : Byte) (s : State) (hw : s.mem.wf) : Wrote s (memWrite a v s) a v where
  memory :=
    { map := memWrite_bindings _ _ _
      stored := fun b h1 h2 => by rw [peek_memWrite _ _ _ _ hw, if_pos ⟨h1, h2⟩]
      kept := fun b h => by
        rw [peek_memWrite _ _ _ _ hw, if_neg]
        rintro ⟨h1, h2⟩
        rcases h with h | h
        · exact h1 h
        · exact h h2 }
  device := by
    simp only [memWrite, logAfterWrite]
    cases s.mem.region a with
    | store id base w => cases w <;> rfl
    | device d => rfl
    | unmapped => rfl
  frame := memWrite_frame _ _ _

theorem wrote_afterResolve (m : MemForm) (v : Byte) (s : State) (hw : s.mem.wf) :
    Wrote (resolveMem m s).st (memWrite (resolveMem m s).ea v (resolveMem m s).st) (resolveMem m s).ea v :=
  wrote_memWrite _ _ _ (by rw [resolveMem_mem]; exact hw)

theorem afterReads_resolve (f : Form) (s : State) : AfterReads s (resolve f s).st := by
  cases f with
  | mem m => exact resolveMem_frame m s
  | imp => rfl
  | acc => rfl
  | imm b => rfl
  | rel d => rfl

/-! ### What a read depends on: memory, the device log and the count of draws -/

/-- Two states that agree on memory, the device log and the draws read the same byte and stay in step. -/
theorem memRead_congr (a : Word) (s t : State) (hm : t.mem = s.mem) (hd : t.draws = s.draws) (hl : t.devLog = s.devLog) :
    memRead a t = ((memRead a s).1, { t with devLog := (memRead a s).2.devLog, draws := (memRead a s).2.draws }) := by
  obtain ⟨⟩ := s
  obtain ⟨⟩ := t
  simp only at hm hd hl
  subst hm hd hl
  simp only [memRead]
  split <;> rfl

theorem memRead_setSp (a : Word) (v : Byte) (s : State) :
    memRead a { s with sp := v } = ((memRead a s).1, { (memRead a s).2 with sp := v }) := by
  unfold memRead
  rw [show ({ s with sp := v } : State).mem = s.mem from rfl]
  cases s.mem.region a <;> rfl

theorem memRead_setFlags (a : Word) (f : Flags) (s : State) :
    memRead a (s.setFlags f) = ((memRead a s).1, (memRead a s).2.setFlags f) := by
  unfold memRead
  rw [setFlags_mem]
  cases s.mem.region a <;> rfl

theorem memWrite_setFlags (a : Word) (v : Byte) (f : Flags) (s : State) :
    memWrite a v (s.setFlags f) = (memWrite a v s).setFlags f := by
  unfold memWrite
  rw [setFlags_mem]
  cases s.mem.region a with
  | store id base w => cases w <;> rfl
  | device d => rfl
  | unmapped => rfl

theorem resolveMem_setFlags (m : MemForm) (f : Flags) (s : State) :
    resolveMem m (s.setFlags f) = { resolveMem m s with st := (resolveMem m s).st.setFlags f } := by
  cases m <;>
    simp only [resolveMem, effAddr, read16, readPointer, memRead_setFlags, setFlags_x, setFlags_y, setFlags_params]
  rfl

end Sys2Proof.Machine
end

