-- ==== Sys2Proof/Tests/Slice0.lean ====
section
/-! SUPPORT. The model's own tests. Expected results are from spec/95_test_vectors.md (E, V numbers) and the opcode map of
spec/30_encoding.md R60; then, for each statement with hypotheses, a witness that meets them. -/

namespace Sys2Proof.Tests

open Sys2Proof Sys2Proof.Machine

/-! ## Well-formedness (30_encoding.md R61) -/

theorem test_illegal_byte_is_well_formed : (Instr.illegal 0x03).wellFormed = true := by decide
theorem test_legal_byte_in_an_illegal_row_is_refused : (Instr.illegal 0xA9).wellFormed = false := by decide
theorem test_encoded_ill_formed_is_another_instruction : decodeTableWord 8 0xEA = some .nop ∧ encode (.illegal 0xEA) = [0xEA] := by
  decide

/-! ## Decoding: the opcode map of R60, row by row, the operand bytes being 0x34 and 0x12. The first illegal byte of a row
stands for its illegal bytes; `test_illegal_rows` has them all. -/

def decodeAll (l : List (Nat × Nat)) : List (Option Instr) := l.map fun p => decodeTableWord p.1 p.2

theorem test_decode_row_0 : decodeAll
    [(8, 0x00), (16, 0x3401), (8, 0x02), (8, 0x03), (16, 0x3405), (16, 0x3406), (8, 0x08), (16, 0x3409), (8, 0x0A),
     (24, 0x12340D), (24, 0x12340E)] =
    [some .brk, some (.oraIzx 0x34), some .hlt, some (.illegal 0x03), some (.oraZp 0x34), some (.aslZp 0x34),
     some .php, some (.oraImm 0x34), some .aslAcc, some (.oraAbs 0x1234), some (.aslAbs 0x1234)] := by decide

theorem test_decode_row_1 : decodeAll
    [(16, 0x3410), (16, 0x3411), (8, 0x12), (16, 0x3415), (16, 0x3416), (8, 0x18), (24, 0x123419), (24, 0x12341D),
     (24, 0x12341E)] =
    [some (.bpl 0x34), some (.oraIzy 0x34), some (.illegal 0x12), some (.oraZpx 0x34), some (.aslZpx 0x34), some .clc,
     some (.oraAbsy 0x1234), some (.oraAbsx 0x1234), some (.aslAbsx 0x1234)] := by decide

theorem test_decode_row_2 : decodeAll
    [(24, 0x123420), (16, 0x3421), (8, 0x22), (16, 0x3424), (16, 0x3425), (16, 0x3426), (8, 0x28), (16, 0x3429),
     (8, 0x2A), (24, 0x12342C), (24, 0x12342D), (24, 0x12342E)] =
    [some (.jsrAbs 0x1234), some (.andIzx 0x34), some (.illegal 0x22), some (.bitZp 0x34), some (.andZp 0x34),
     some (.rolZp 0x34), some .plp, some (.andImm 0x34), some .rolAcc, some (.bitAbs 0x1234), some (.andAbs 0x1234),
     some (.rolAbs 0x1234)] := by decide

theorem test_decode_row_3 : decodeAll
    [(16, 0x3430), (16, 0x3431), (8, 0x32), (16, 0x3435), (16, 0x3436), (8, 0x38), (24, 0x123439), (24, 0x12343D),
     (24, 0x12343E)] =
    [some (.bmi 0x34), some (.andIzy 0x34), some (.illegal 0x32), some (.andZpx 0x34), some (.rolZpx 0x34), some .sec,
     some (.andAbsy 0x1234), some (.andAbsx 0x1234), some (.rolAbsx 0x1234)] := by decide

theorem test_decode_row_4 : decodeAll
    [(8, 0x40), (16, 0x3441), (8, 0x42), (16, 0x3445), (16, 0x3446), (8, 0x48), (16, 0x3449), (8, 0x4A),
     (24, 0x12344C), (24, 0x12344D), (24, 0x12344E)] =
    [some .rti, some (.eorIzx 0x34), some (.illegal 0x42), some (.eorZp 0x34), some (.lsrZp 0x34), some .pha,
     some (.eorImm 0x34), some .lsrAcc, some (.jmpAbs 0x1234), some (.eorAbs 0x1234), some (.lsrAbs 0x1234)] := by decide

theorem test_decode_row_5 : decodeAll
    [(16, 0x3450), (16, 0x3451), (8, 0x52), (16, 0x3455), (16, 0x3456), (8, 0x58), (24, 0x123459), (24, 0x12345D),
     (24, 0x12345E)] =
    [some (.bvc 0x34), some (.eorIzy 0x34), some (.illegal 0x52), some (.eorZpx 0x34), some (.lsrZpx 0x34), some .cli,
     some (.eorAbsy 0x1234), some (.eorAbsx 0x1234), some (.lsrAbsx 0x1234)] := by decide

theorem test_decode_row_6 : decodeAll
    [(8, 0x60), (16, 0x3461), (8, 0x62), (16, 0x3465), (16, 0x3466), (8, 0x68), (16, 0x3469), (8, 0x6A),
     (24, 0x12346C), (24, 0x12346D), (24, 0x12346E)] =
    [some .rts, some (.adcIzx 0x34), some (.illegal 0x62), some (.adcZp 0x34), some (.rorZp 0x34), some .pla,
     some (.adcImm 0x34), some .rorAcc, some (.jmpInd 0x1234), some (.adcAbs 0x1234), some (.rorAbs 0x1234)] := by decide

theorem test_decode_row_7 : decodeAll
    [(16, 0x3470), (16, 0x3471), (8, 0x72), (16, 0x3475), (16, 0x3476), (8, 0x78), (24, 0x123479), (24, 0x12347D),
     (24, 0x12347E)] =
    [some (.bvs 0x34), some (.adcIzy 0x34), some (.illegal 0x72), some (.adcZpx 0x34), some (.rorZpx 0x34), some .sei,
     some (.adcAbsy 0x1234), some (.adcAbsx 0x1234), some (.rorAbsx 0x1234)] := by decide

theorem test_decode_row_8 : decodeAll
    [(8, 0x80), (16, 0x3481), (16, 0x3484), (16, 0x3485), (16, 0x3486), (8, 0x88), (8, 0x8A), (24, 0x12348C),
     (24, 0x12348D), (24, 0x12348E)] =
    [some (.illegal 0x80), some (.staIzx 0x34), some (.styZp 0x34), some (.staZp 0x34), some (.stxZp 0x34), some .dey,
     some .txa, some (.styAbs 0x1234), some (.staAbs 0x1234), some (.stxAbs 0x1234)] := by decide

theorem test_decode_row_9 : decodeAll
    [(16, 0x3490), (16, 0x3491), (8, 0x92), (16, 0x3494), (16, 0x3495), (16, 0x3496), (8, 0x98), (24, 0x123499),
     (8, 0x9A), (24, 0x12349D)] =
    [some (.bcc 0x34), some (.staIzy 0x34), some (.illegal 0x92), some (.styZpx 0x34), some (.staZpx 0x34),
     some (.stxZpy 0x34), some .tya, some (.staAbsy 0x1234), some .txs, some (.staAbsx 0x1234)] := by decide

theorem test_decode_row_A : decodeAll
    [(16, 0x34A0), (16, 0x34A1), (16, 0x34A2), (8, 0xA3), (16, 0x34A4), (16, 0x34A5), (16, 0x34A6), (8, 0xA8),
     (16, 0x34A9), (8, 0xAA), (24, 0x1234AC), (24, 0x1234AD), (24, 0x1234AE)] =
    [some (.ldyImm 0x34), some (.ldaIzx 0x34), some (.ldxImm 0x34), some (.illegal 0xA3), some (.ldyZp 0x34),
     some (.ldaZp 0x34), some (.ldxZp 0x34), some .tay, some (.ldaImm 0x34), some .tax, some (.ldyAbs 0x1234),
     some (.ldaAbs 0x1234), some (.ldxAbs 0x1234)] := by decide

theorem test_decode_row_B : decodeAll
    [(16, 0x34B0), (16, 0x34B1), (8, 0xB2), (16, 0x34B4), (16, 0x34B5), (16, 0x34B6), (8, 0xB8), (24, 0x1234B9),
     (8, 0xBA), (24, 0x1234BC), (24, 0x1234BD), (24, 0x1234BE)] =
    [some (.bcs 0x34), some (.ldaIzy 0x34), some (.illegal 0xB2), some (.ldyZpx 0x34), some (.ldaZpx 0x34),
     some (.ldxZpy 0x34), some .clv, some (.ldaAbsy 0x1234), some .tsx, some (.ldyAbsx 0x1234), some (.ldaAbsx 0x1234),
     some (.ldxAbsy 0x1234)] := by decide

theorem test_decode_row_C : decodeAll
    [(16, 0x34C0), (16, 0x34C1), (8, 0xC2), (16, 0x34C4), (16, 0x34C5), (16, 0x34C6), (8, 0xC8), (16, 0x34C9),
     (8, 0xCA), (24, 0x1234CC), (24, 0x1234CD), (24, 0x1234CE)] =
    [some (.cpyImm 0x34), some (.cmpIzx 0x34), some (.illegal 0xC2), some (.cpyZp 0x34), some (.cmpZp 0x34),
     some (.decZp 0x34), some .iny, some (.cmpImm 0x34), some .dex, some (.cpyAbs 0x1234), some (.cmpAbs 0x1234),
     some (.decAbs 0x1234)] := by decide

theorem test_decode_row_D : decodeAll
    [(16, 0x34D0), (16, 0x34D1), (8, 0xD2), (16, 0x34D5), (16, 0x34D6), (8, 0xD8), (24, 0x1234D9), (24, 0x1234DD),
     (24, 0x1234DE)] =
    [some (.bne 0x34), some (.cmpIzy 0x34), some (.illegal 0xD2), some (.cmpZpx 0x34), some (.decZpx 0x34), some .cld,
     some (.cmpAbsy 0x1234), some (.cmpAbsx 0x1234), some (.decAbsx 0x1234)] := by decide

theorem test_decode_row_E : decodeAll
    [(16, 0x34E0), (16, 0x34E1), (8, 0xE2), (16, 0x34E4), (16, 0x34E5), (16, 0x34E6), (8, 0xE8), (16, 0x34E9),
     (8, 0xEA), (24, 0x1234EC), (24, 0x1234ED), (24, 0x1234EE)] =
    [some (.cpxImm 0x34), some (.sbcIzx 0x34), some (.illegal 0xE2), some (.cpxZp 0x34), some (.sbcZp 0x34),
     some (.incZp 0x34), some .inx, some (.sbcImm 0x34), some .nop, some (.cpxAbs 0x1234), some (.sbcAbs 0x1234),
     some (.incAbs 0x1234)] := by decide

theorem test_decode_row_F : decodeAll
    [(16, 0x34F0), (16, 0x34F1), (8, 0xF2), (16, 0x34F5), (16, 0x34F6), (8, 0xF8), (24, 0x1234F9), (24, 0x1234FD),
     (24, 0x1234FE)] =
    [some (.beq 0x34), some (.sbcIzy 0x34), some (.illegal 0xF2), some (.sbcZpx 0x34), some (.incZpx 0x34), some .sed,
     some (.sbcAbsy 0x1234), some (.sbcAbsx 0x1234), some (.incAbsx 0x1234)] := by decide

/-- R61: what the map marks `--` is what the list of R61 names. -/
theorem test_illegal_rows : (illegalBytes.map fun n => decodeTableWord 8 n) = illegalBytes.map fun n => some (.illegal (.ofNat 8 n)) := by
  decide

/-- An operand byte that is not there is no instruction. -/
theorem test_decode_truncated : decode [0x8D, 0x00] = .error (.truncated 0x8D) := rfl

/-- T7 through the assembler (30_encoding.md R66, R67): the loop, with its branch given by its target, ends in HLT already. -/
theorem test_assemble_program : assembleProgram 0 0xFD00
    [⟨.ldx, .form (.imm 0x00)⟩, ⟨.inx, .form .imp⟩, ⟨.cpx, .form (.imm 0x03)⟩, ⟨.bne, .target 0xFD02⟩,
     ⟨.stx, .form (.mem (.zp 0x30))⟩, ⟨.hlt, .form .imp⟩] =
    .ok [0xA2, 0x00, 0xE8, 0xE0, 0x03, 0xD0, 0xFB, 0x86, 0x30, 0x02] := rfl

/-- R66: the refusals, and a branch out of range (R67, U19). -/
theorem test_assemble_refusals :
    assemble .sta (.imm 0x05) = .error .unknownEncoding ∧ assemble .illegal .imp = .error .unimplementedOpcode ∧
    assembleLine 0x0300 ⟨.bne, .target 0x0382⟩ = .error .branchOutOfRange ∧
    assembleLine 0x0000 ⟨.lda, .target 0x8000⟩ = .error .unknownEncoding := ⟨rfl, rfl, rfl, rfl⟩

/-- R66, requirement 3: a source without a trailing halt or return gets one. -/
theorem test_trailing_line (n : Nat) : (withTrailing n [⟨.nop, .form .imp⟩]).length = 2 ∧
    withTrailing n [⟨.rts, .form .imp⟩] = [⟨.rts, .form .imp⟩] := ⟨rfl, rfl⟩

/-! ## Steps (95_test_vectors.md Part 2): registers and P, the fault, and some bytes of memory after one step -/

/-- The start state of Part 2's conventions, without code. -/
def fresh : State := State.reset

def poke (cells : List (Word × Byte)) (s : State) : State := cells.foldl (fun t c => memWrite c.1 c.2 t) s

/-- `s` with code and other bytes in memory and PC at the code. -/
def start (code : List Byte) (pc : Word) (cells : List (Word × Byte)) (s : State) : State :=
  { poke (cells ++ code.mapIdx fun k b => (pc + .ofNat 16 k, b)) s with pc := pc }

/-- What a test looks at: A, X, Y, SP, P, PC, the fault, and some bytes of memory. -/
structure View where
  a : Byte
  x : Byte
  y : Byte
  sp : Byte
  p : Byte
  pc : Word
  fault : Option FaultRecord
  bytes : List (Option Byte)
  deriving DecidableEq, Repr

def after (code : List Byte) (pc : Word) (cells : List (Word × Byte)) (s : State) (look : List Word) : Option View :=
  match step (start code pc cells s) with
  | .next t => some ⟨t.a, t.x, t.y, t.sp, t.flags.pack, t.pc, t.fault, look.map t.mem.peek⟩
  | .fault _ => none
  | .refused _ => none

-- V2
theorem test_lda_imm : after [0xA9, 0x80] 0x0300 [] fresh [] =
    some ⟨0x80, 0x00, 0x00, 0xFF, 0xA0, 0x0302, none, []⟩ := by decide
-- V3
theorem test_lda_zpx_leaves_page_zero : after [0xB5, 0x10] 0x0300 [(0x0105, 0x44)]
    { fresh with x := 0xF5 } [] =
    some ⟨0x44, 0xF5, 0x00, 0xFF, 0x20, 0x0302, none, []⟩ := by decide
-- V4
theorem test_zpx_wraps_by_parameter : after [0xB5, 0x10] 0x0300 [(0x0005, 0x55)]
    { fresh with x := 0xF5, params := { Config.defaults with zpIndexWrap := true } } [] =
    some ⟨0x55, 0xF5, 0x00, 0xFF, 0x20, 0x0302, none, []⟩ := by decide
-- V5
theorem test_absx_wraps : after [0xBD, 0xFF, 0xFF] 0x0300 [(0x0001, 0x7E)]
    { fresh with x := 0x02 } [] =
    some ⟨0x7E, 0x02, 0x00, 0xFF, 0x20, 0x0303, none, []⟩ := by decide
-- V6
theorem test_izx_pointer_crosses_page : after [0xA1, 0xFF] 0x0300 [(0x00FF, 0x34), (0x0100, 0x12), (0x1234, 0x5A)] fresh [] =
    some ⟨0x5A, 0x00, 0x00, 0xFF, 0x20, 0x0302, none, []⟩ := by decide
-- V7
theorem test_izx_pointer_wraps_by_parameter : after [0xA1, 0xFF] 0x0300 [(0x00FF, 0x34), (0x0000, 0x02), (0x0234, 0x6B)]
    { fresh with params := { Config.defaults with zpPtrWrap := true } } [] =
    some ⟨0x6B, 0x00, 0x00, 0xFF, 0x20, 0x0302, none, []⟩ := by decide
-- V8
theorem test_izy_same_byte : after [0xB1, 0x20] 0x0300 [(0x0020, 0x12), (0x0021, 0x34), (0x1215, 0xAA), (0x3415, 0xBB)]
    { fresh with y := 0x03 } [] =
    some ⟨0xAA, 0x00, 0x03, 0xFF, 0xA0, 0x0302, none, []⟩ := by decide
-- V9
theorem test_izy_two_bytes_by_parameter : after [0xB1, 0x20] 0x0300 [(0x0020, 0x12), (0x0021, 0x34), (0x1215, 0xAA), (0x3415, 0xBB)]
    { fresh with y := 0x03, params := { Config.defaults with iySameByte := false } } [] =
    some ⟨0xBB, 0x00, 0x03, 0xFF, 0xA0, 0x0302, none, []⟩ := by decide
-- V11
theorem test_ldx_zpy : after [0xB6, 0xF0] 0x0300 [(0x0110, 0x01)]
    { fresh with y := 0x20 } [] =
    some ⟨0x00, 0x01, 0x20, 0xFF, 0x20, 0x0302, none, []⟩ := by decide
-- V12
theorem test_ldy_imm : after [0xA0, 0xFF] 0x0300 [] fresh [] =
    some ⟨0x00, 0x00, 0xFF, 0xFF, 0xA0, 0x0302, none, []⟩ := by decide
-- V13
theorem test_lda_unmapped : after [0xAD, 0x00, 0xF8] 0x0300 [] fresh [] =
    some ⟨0x00, 0x00, 0x00, 0xFF, 0x22, 0x0303, none, []⟩ := by decide
-- V14
theorem test_sta_zp : after [0x85, 0x00] 0x0300 []
    { fresh with a := 0x05 } [0x0000] =
    some ⟨0x05, 0x00, 0x00, 0xFF, 0x20, 0x0302, none, [some 0x05]⟩ := by decide
-- V15
theorem test_sta_unmapped : after [0x8D, 0x00, 0xF8] 0x0300 []
    { fresh with a := 0x05 } [0xF800] =
    some ⟨0x05, 0x00, 0x00, 0xFF, 0x20, 0x0303, none, [some 0x00]⟩ := by decide
-- V16
theorem test_sty_zpx : after [0x94, 0xFF] 0x0300 []
    { fresh with x := 0x01, y := 0x33 } [0x0100] =
    some ⟨0x00, 0x01, 0x33, 0xFF, 0x20, 0x0302, none, [some 0x33]⟩ := by decide
-- V17
theorem test_stx_zpy : after [0x96, 0x40] 0x0300 []
    { fresh with x := 0x7F, y := 0x02 } [0x0042] =
    some ⟨0x00, 0x7F, 0x02, 0xFF, 0x20, 0x0302, none, [some 0x7F]⟩ := by decide
-- V19
theorem test_tax : after [0xAA] 0x0300 []
    { fresh with a := 0x80 } [] =
    some ⟨0x80, 0x80, 0x00, 0xFF, 0xA0, 0x0301, none, []⟩ := by decide
-- V20
theorem test_tay : after [0xA8] 0x0300 []
    { fresh with y := 0x05 } [] =
    some ⟨0x00, 0x00, 0x00, 0xFF, 0x22, 0x0301, none, []⟩ := by decide
-- V21
theorem test_txa : after [0x8A] 0x0300 []
    { fresh with x := 0x01 } [] =
    some ⟨0x01, 0x01, 0x00, 0xFF, 0x20, 0x0301, none, []⟩ := by decide
-- V22
theorem test_tya : after [0x98] 0x0300 []
    { fresh with y := 0xFE } [] =
    some ⟨0xFE, 0x00, 0xFE, 0xFF, 0xA0, 0x0301, none, []⟩ := by decide
-- V23
theorem test_tsx : after [0xBA] 0x0300 [] fresh [] =
    some ⟨0x00, 0xFF, 0x00, 0xFF, 0xA0, 0x0301, none, []⟩ := by decide
-- V24
theorem test_txs : after [0x9A] 0x0300 [] fresh [] =
    some ⟨0x00, 0x00, 0x00, 0x00, 0x22, 0x0301, none, []⟩ := by decide
-- V25
theorem test_pha : after [0x48] 0x0300 []
    { fresh with a := 0x42 } [0x01FF] =
    some ⟨0x42, 0x00, 0x00, 0xFE, 0x20, 0x0301, none, [some 0x42]⟩ := by decide
-- V26
theorem test_pha_overflow : after [0x48] 0x0300 []
    { fresh with a := 0x42, sp := 0x00 } [0x0100] =
    some ⟨0x42, 0x00, 0x00, 0x00, 0x20, 0x0301, some ⟨.stackOverflow, 0x48, 0x0300⟩, [some 0x00]⟩ := by decide
-- V27
theorem test_pla_underflow : after [0x68] 0x0300 [] fresh [] =
    some ⟨0x00, 0x00, 0x00, 0xFF, 0x20, 0x0301, some ⟨.stackUnderflow, 0x68, 0x0300⟩, []⟩ := by decide
-- V28
theorem test_pla : after [0x68] 0x0300 [(0x01FF, 0x80)]
    { fresh with sp := 0xFE } [] =
    some ⟨0x80, 0x00, 0x00, 0xFF, 0xA0, 0x0301, none, []⟩ := by decide
-- V29
theorem test_php : after [0x08] 0x0300 []
    { fresh with flags := .unpack 0xB1 } [0x01FF] =
    some ⟨0x00, 0x00, 0x00, 0xFE, 0xB1, 0x0301, none, [some 0xB1]⟩ := by decide
-- V31
theorem test_plp_sets_b_and_d : after [0x28] 0x0300 [(0x01FF, 0xFF)]
    { fresh with sp := 0xFE } [] =
    some ⟨0x00, 0x00, 0x00, 0xFF, 0xFF, 0x0301, none, []⟩ := by decide
-- V32
theorem test_plp_keeps_bit_5 : after [0x28] 0x0300 []
    { fresh with sp := 0xFE, flags := .unpack 0xE1 } [] =
    some ⟨0x00, 0x00, 0x00, 0xFF, 0x20, 0x0301, none, []⟩ := by decide
-- V34
theorem test_adc_ignores_carry : after [0x69, 0x01] 0x0300 []
    { fresh with a := 0xFF, flags := .unpack 0x21 } [] =
    some ⟨0x00, 0x00, 0x00, 0xFF, 0x23, 0x0302, none, []⟩ := by decide
-- V35
theorem test_adc_carry_by_parameter : after [0x69, 0x01] 0x0300 []
    { fresh with a := 0xFF, flags := .unpack 0x21, params := { Config.defaults with adcCarryIn := true } } [] =
    some ⟨0x01, 0x00, 0x00, 0xFF, 0x21, 0x0302, none, []⟩ := by decide
-- V37
theorem test_sbc_keeps_carry : after [0xE9, 0x01] 0x0300 []
    { fresh with flags := .unpack 0x21 } [] =
    some ⟨0xFF, 0x00, 0x00, 0xFF, 0xA1, 0x0302, none, []⟩ := by decide
-- V39
theorem test_sbc_borrow_by_parameter : after [0xE9, 0x01] 0x0300 []
    { fresh with a := 0x05, params := { Config.defaults with sbcBorrowIn := true } } [] =
    some ⟨0x03, 0x00, 0x00, 0xFF, 0x20, 0x0302, none, []⟩ := by decide
-- V40
theorem test_and_imm : after [0x29, 0x0F] 0x0300 []
    { fresh with a := 0xF0 } [] =
    some ⟨0x00, 0x00, 0x00, 0xFF, 0x22, 0x0302, none, []⟩ := by decide
-- V41
theorem test_ora_imm : after [0x09, 0xF0] 0x0300 []
    { fresh with a := 0x0F } [] =
    some ⟨0xFF, 0x00, 0x00, 0xFF, 0xA0, 0x0302, none, []⟩ := by decide
-- V42
theorem test_eor_imm : after [0x49, 0xAA] 0x0300 []
    { fresh with a := 0xFF } [] =
    some ⟨0x55, 0x00, 0x00, 0xFF, 0x20, 0x0302, none, []⟩ := by decide
-- V43
theorem test_cpx_imm : after [0xE0, 0x20] 0x0300 []
    { fresh with x := 0x10 } [] =
    some ⟨0x00, 0x10, 0x00, 0xFF, 0xA0, 0x0302, none, []⟩ := by decide
-- V44
theorem test_cpy_imm : after [0xC0, 0xFF] 0x0300 []
    { fresh with y := 0xFF } [] =
    some ⟨0x00, 0x00, 0xFF, 0xFF, 0x23, 0x0302, none, []⟩ := by decide
-- V45
theorem test_bit_zp : after [0x24, 0x10] 0x0300 [(0x0010, 0xC0)]
    { fresh with a := 0x01 } [] =
    some ⟨0x01, 0x00, 0x00, 0xFF, 0xE2, 0x0302, none, []⟩ := by decide
-- V46
theorem test_bit_clears : after [0x24, 0x10] 0x0300 [(0x0010, 0x01)]
    { fresh with a := 0x01, flags := .unpack 0xE0 } [] =
    some ⟨0x01, 0x00, 0x00, 0xFF, 0x20, 0x0302, none, []⟩ := by decide
-- V47
theorem test_inc_zp : after [0xE6, 0x10] 0x0300 [(0x0010, 0xFF)] fresh [0x0010] =
    some ⟨0x00, 0x00, 0x00, 0xFF, 0x22, 0x0302, none, [some 0x00]⟩ := by decide
-- V48
theorem test_dec_abs : after [0xCE, 0x00, 0x02] 0x0300 [] fresh [0x0200] =
    some ⟨0x00, 0x00, 0x00, 0xFF, 0xA0, 0x0303, none, [some 0xFF]⟩ := by decide
-- V49
theorem test_inx : after [0xE8] 0x0300 []
    { fresh with x := 0xFF } [] =
    some ⟨0x00, 0x00, 0x00, 0xFF, 0x22, 0x0301, none, []⟩ := by decide
-- V50
theorem test_dex : after [0xCA] 0x0300 []
    { fresh with x := 0x01 } [] =
    some ⟨0x00, 0x00, 0x00, 0xFF, 0x22, 0x0301, none, []⟩ := by decide
-- V51
theorem test_iny : after [0xC8] 0x0300 []
    { fresh with y := 0x7F } [] =
    some ⟨0x00, 0x00, 0x80, 0xFF, 0xA0, 0x0301, none, []⟩ := by decide
-- V52
theorem test_dey : after [0x88] 0x0300 [] fresh [] =
    some ⟨0x00, 0x00, 0xFF, 0xFF, 0xA0, 0x0301, none, []⟩ := by decide
-- V53
theorem test_asl_acc : after [0x0A] 0x0300 []
    { fresh with a := 0x81 } [] =
    some ⟨0x02, 0x00, 0x00, 0xFF, 0x21, 0x0301, none, []⟩ := by decide
-- V54
theorem test_asl_zp_0 : after [0x06, 0x00] 0x0300 [(0x0000, 0x40)]
    { fresh with a := 0x01 } [0x0000] =
    some ⟨0x01, 0x00, 0x00, 0xFF, 0xA0, 0x0302, none, [some 0x80]⟩ := by decide
-- V55
theorem test_asl_zp_0_selects_a_by_parameter : after [0x06, 0x00] 0x0300 [(0x0000, 0x40)]
    { fresh with a := 0x01, params := { Config.defaults with addr0SelectsAcc := true } } [0x0000] =
    some ⟨0x02, 0x00, 0x00, 0xFF, 0x20, 0x0302, none, [some 0x40]⟩ := by decide
-- V56
theorem test_lsr_zp : after [0x46, 0x20] 0x0300 [(0x0020, 0x03)] fresh [0x0020] =
    some ⟨0x00, 0x00, 0x00, 0xFF, 0x21, 0x0302, none, [some 0x01]⟩ := by decide
-- V57
theorem test_lsr_acc : after [0x4A] 0x0300 []
    { fresh with a := 0x01 } [] =
    some ⟨0x00, 0x00, 0x00, 0xFF, 0x23, 0x0301, none, []⟩ := by decide
-- V58
theorem test_rol_acc_carry_in : after [0x2A] 0x0300 []
    { fresh with a := 0x40, flags := .unpack 0x21 } [] =
    some ⟨0x81, 0x00, 0x00, 0xFF, 0xA0, 0x0301, none, []⟩ := by decide
-- V59
theorem test_rol_acc_carry_out : after [0x2A] 0x0300 []
    { fresh with a := 0x80 } [] =
    some ⟨0x00, 0x00, 0x00, 0xFF, 0x23, 0x0301, none, []⟩ := by decide
-- V60
theorem test_ror_acc : after [0x6A] 0x0300 []
    { fresh with a := 0x01, flags := .unpack 0x21 } [] =
    some ⟨0x80, 0x00, 0x00, 0xFF, 0xA1, 0x0301, none, []⟩ := by decide
-- V61
theorem test_ror_zp : after [0x66, 0x30] 0x0300 [(0x0030, 0x01)] fresh [0x0030] =
    some ⟨0x00, 0x00, 0x00, 0xFF, 0x23, 0x0302, none, [some 0x00]⟩ := by decide
-- V62
theorem test_inc_vector : (match step (start [0xEE, 0xFC, 0xFF] 0x0300 [] fresh) with
    | .next t => some (t.mem.peek 0xFFFC, t.flags.pack, t.pc)
    | _ => none) = some (some 0x01, 0x20, 0x0303) := by decide
-- V63
theorem test_bne_back : after [0xD0, 0xFB] 0x0210 [] fresh [] =
    some ⟨0x00, 0x00, 0x00, 0xFF, 0x20, 0x020D, none, []⟩ := by decide
-- V64
theorem test_beq_not_taken : after [0xF0, 0xFB] 0x0300 [] fresh [] =
    some ⟨0x00, 0x00, 0x00, 0xFF, 0x20, 0x0302, none, []⟩ := by decide
-- V65
theorem test_bpl_farthest_forward : after [0x10, 0x7F] 0x0300 [] fresh [] =
    some ⟨0x00, 0x00, 0x00, 0xFF, 0x20, 0x0381, none, []⟩ := by decide
-- V66
theorem test_bmi_farthest_back : after [0x30, 0x80] 0x0300 []
    { fresh with flags := .unpack 0xA0 } [] =
    some ⟨0x00, 0x00, 0x00, 0xFF, 0xA0, 0x0282, none, []⟩ := by decide
-- V67
theorem test_bcc_zero : after [0x90, 0x00] 0x0300 [] fresh [] =
    some ⟨0x00, 0x00, 0x00, 0xFF, 0x20, 0x0302, none, []⟩ := by decide
-- V68
theorem test_bcs_to_itself : after [0xB0, 0xFE] 0x0300 []
    { fresh with flags := .unpack 0x21 } [] =
    some ⟨0x00, 0x00, 0x00, 0xFF, 0x21, 0x0300, none, []⟩ := by decide
-- V69
theorem test_bvs_not_taken : after [0x70, 0x02] 0x0300 [] fresh [] =
    some ⟨0x00, 0x00, 0x00, 0xFF, 0x20, 0x0302, none, []⟩ := by decide
-- V70
theorem test_bvc_taken : after [0x50, 0x02] 0x0300 [] fresh [] =
    some ⟨0x00, 0x00, 0x00, 0xFF, 0x20, 0x0304, none, []⟩ := by decide
-- V71
theorem test_bne_wraps : after [0xD0, 0x02] 0xFFFC [] fresh [] =
    some ⟨0x00, 0x00, 0x00, 0xFF, 0x20, 0x0000, none, []⟩ := by decide
-- V72
theorem test_jmp_abs : after [0x4C, 0x34, 0x12] 0x0300 [] fresh [] =
    some ⟨0x00, 0x00, 0x00, 0xFF, 0x20, 0x1234, none, []⟩ := by decide
-- V73
theorem test_jmp_ind_no_page_bug : after [0x6C, 0xFF, 0x10] 0x0300 [(0x1100, 0x20), (0x1000, 0x30)] fresh [] =
    some ⟨0x00, 0x00, 0x00, 0xFF, 0x20, 0x2000, none, []⟩ := by decide
-- V74
theorem test_jsr : after [0x20, 0x34, 0x12] 0x0300 [] fresh [0x01FF, 0x01FE] =
    some ⟨0x00, 0x00, 0x00, 0xFD, 0x20, 0x1234, none, [some 0x03, some 0x03]⟩ := by decide
-- V75
theorem test_jsr_second_push_faults : after [0x20, 0x34, 0x12] 0x0300 []
    { fresh with sp := 0x01 } [0x0101] =
    some ⟨0x00, 0x00, 0x00, 0x00, 0x20, 0x0303, some ⟨.stackOverflow, 0x20, 0x0300⟩, [some 0x03]⟩ := by decide
-- V76
theorem test_rts : after [0x60] 0x0300 [(0x01FE, 0x03), (0x01FF, 0x04)]
    { fresh with sp := 0xFD } [] =
    some ⟨0x00, 0x00, 0x00, 0xFF, 0x20, 0x0403, none, []⟩ := by decide
-- V77
theorem test_rts_second_pop_faults : after [0x60] 0x0300 [(0x01FF, 0x04)]
    { fresh with sp := 0xFE } [] =
    some ⟨0x00, 0x00, 0x00, 0xFF, 0x20, 0x0301, some ⟨.stackUnderflow, 0x60, 0x0300⟩, []⟩ := by decide
-- V78
theorem test_brk : after [0x00] 0x0300 [] fresh [0x01FF, 0x01FE] =
    some ⟨0x00, 0x00, 0x00, 0xFD, 0x34, 0x0000, none, [some 0x03, some 0x01]⟩ := by decide
-- V79
theorem test_rti : after [0x40] 0x0300 [(0x01FE, 0x01), (0x01FF, 0x04)]
    { fresh with sp := 0xFD, flags := .unpack 0x35 } [] =
    some ⟨0x00, 0x00, 0x00, 0xFF, 0x21, 0x0401, none, []⟩ := by decide
-- V80
theorem test_sec : after [0x38] 0x0300 [] fresh [] =
    some ⟨0x00, 0x00, 0x00, 0xFF, 0x21, 0x0301, none, []⟩ := by decide
-- V81
theorem test_clc : after [0x18] 0x0300 []
    { fresh with flags := .unpack 0x21 } [] =
    some ⟨0x00, 0x00, 0x00, 0xFF, 0x20, 0x0301, none, []⟩ := by decide
-- V82
theorem test_sei : after [0x78] 0x0300 [] fresh [] =
    some ⟨0x00, 0x00, 0x00, 0xFF, 0x24, 0x0301, none, []⟩ := by decide
-- V83
theorem test_cli : after [0x58] 0x0300 []
    { fresh with flags := .unpack 0x24 } [] =
    some ⟨0x00, 0x00, 0x00, 0xFF, 0x20, 0x0301, none, []⟩ := by decide
-- V84
theorem test_clv : after [0xB8] 0x0300 []
    { fresh with flags := .unpack 0x60 } [] =
    some ⟨0x00, 0x00, 0x00, 0xFF, 0x20, 0x0301, none, []⟩ := by decide
-- V85
theorem test_sed : after [0xF8] 0x0300 [] fresh [] =
    some ⟨0x00, 0x00, 0x00, 0xFF, 0x28, 0x0301, none, []⟩ := by decide
-- V86
theorem test_cld : after [0xD8] 0x0300 []
    { fresh with flags := .unpack 0x28 } [] =
    some ⟨0x00, 0x00, 0x00, 0xFF, 0x20, 0x0301, none, []⟩ := by decide
-- V87
theorem test_nop : after [0xEA] 0x0300 [] fresh [] =
    some ⟨0x00, 0x00, 0x00, 0xFF, 0x20, 0x0301, none, []⟩ := by decide
-- V90
theorem test_illegal_reads_no_operand : after [0x03, 0x10] 0x0300 [] fresh [] =
    some ⟨0x00, 0x00, 0x00, 0xFF, 0x20, 0x0301, some ⟨.unimplementedOpcode, 0x03, 0x0300⟩, []⟩ := by decide
-- V91
theorem test_illegal_jam : after [0x12] 0x0300 [] fresh [] =
    some ⟨0x00, 0x00, 0x00, 0xFF, 0x20, 0x0301, some ⟨.unimplementedOpcode, 0x12, 0x0300⟩, []⟩ := by decide
-- V88, E10
theorem test_hlt : (match step (start [0x02] 0x0300 [] fresh) with
    | .next t => some (t.halted, t.bus, t.flags.pack, t.pc)
    | _ => none) = some (true, 0xFF, 0x20, 0x0301) := by decide

/-! ## Operations -/

/-- 95_test_vectors.md 2.4: the compare table, N Z C by default and with P_CMP_N_FROM_BIT7. -/
def nzc (fromBit7 : Bool) (r v : Byte) : Bool × Bool × Bool :=
  ((Flags.clear.compare fromBit7 r v).n, (Flags.clear.compare fromBit7 r v).z, (Flags.clear.compare fromBit7 r v).c)

theorem test_compare_default :
    nzc false 0x05 0x05 = (false, true, true) ∧ nzc false 0x03 0x05 = (true, false, false) ∧
    nzc false 0x80 0x00 = (false, false, true) ∧ nzc false 0x00 0xFF = (true, false, false) ∧
    nzc false 0xFF 0x00 = (false, false, true) ∧ nzc false 0x7F 0xFF = (true, false, false) := by decide

theorem test_compare_from_bit_7 :
    nzc true 0x05 0x05 = (false, true, true) ∧ nzc true 0x03 0x05 = (true, false, false) ∧
    nzc true 0x80 0x00 = (true, false, true) ∧ nzc true 0x00 0xFF = (false, false, false) ∧
    nzc true 0xFF 0x00 = (true, false, true) ∧ nzc true 0x7F 0xFF = (true, false, false) := by decide

/-- E3: CMP through the step. -/
theorem test_cmp_imm : after [0xC9, 0x05] 0x0300 [] { fresh with a := 0x03 } [] =
    some ⟨0x03, 0x00, 0x00, 0xFF, 0xA0, 0x0302, none, []⟩ := by decide

/-- E4: the stack is last in, first out. -/
theorem test_stack_lifo : (match push 0 0x11 fresh with
    | .ok s1 => match push 0 0x22 s1 with
      | .ok s2 => match pop 0 s2 with
        | .ok r1 => match pop 0 r1.2 with
          | .ok r2 => some (s2.sp, r1.1, r2.1, r2.2.sp)
          | .error _ => none
        | .error _ => none
      | .error _ => none
    | .error _ => none) = some (0xFD, 0x22, 0x11, 0xFF) := by decide

/-- E7: the last map wins, address by address. -/
theorem test_map_precedence :
    let m := ((Memory.constructed Config.defaults).bindDevice 0x10 0x20).bindDevice 0x15 0x16
    [0x0F, 0x10, 0x14, 0x15, 0x16, 0x17, 0x20, 0x21].map m.region =
      [.store 0 0 true, .device 0, .device 0, .device 1, .device 1, .device 0, .device 0, .store 0 0 true] := by decide

/-- E6: the RESET vector as constructed. -/
theorem test_reset_vector : (fresh.mem.peek 0xFFFC, fresh.mem.peek 0xFFFD, State.reset.pc) = (some 0x00, some 0xFD, 0xFD00) := by
  decide

/-- V18 with P_VECTORS_WRITABLE false: the write is ignored. -/
theorem test_vector_not_writable :
    let s := State.launch { Config.defaults with vectorsWritable := false }
      (Memory.launched { Config.defaults with vectorsWritable := false } [])
    (memWrite 0xFFFC 0x12 s).mem.peek 0xFFFC = some 0x00 := by decide

/-- A word at the top of the address space takes its high byte from 0x0000 (20_memory.md R40, 70_reset_and_hazards.md R150). -/
theorem test_read16_wraps : (read16 0xFFFF (poke [(0xFFFF, 0x34), (0x0000, 0x12)] fresh)).1 = 0x1234 := by decide

/-- T9's first step: the idle machine fetches BRK from unmapped memory. -/
theorem test_idle_machine : (match step State.reset with
    | .next t => some (t.sp, t.pc, t.flags.pack, t.mem.peek 0x01FF, t.mem.peek 0x01FE)
    | _ => none) = some (0xFD, 0x0000, 0x34, some 0xFD, some 0x01) := by decide

/-- An instruction placed by `withFetchWord` is the next one run. -/
theorem test_with_fetch_word : (match step (State.reset.withFetchWord 16 0x80A9) with
    | .next t => some (t.a, t.pc, t.ir)
    | _ => none) = some (0x80, 0xFD02, 0xA9) := by decide

/-! ## Witnesses: states and operands that meet the hypotheses of the statements -/

/-- `fresh` with code at 0x0300 and PC there. -/
def ready (code : List Byte) : State := start code 0x0300 [] fresh

/-- `fresh` with every address served by device 7. -/
def allDevice : State := { fresh with mem := { bindings := [⟨0x0000, 0xFFFF, .device 7⟩], cells := [] } }

/-- A ROM at 0xE000, a device at 0xE001; SP as given. -/
def mixed (sp : Byte) : State :=
  { fresh with sp := sp, mem := ((Memory.constructed Config.defaults).bindBytes 0xE000 0xE000 [0x5A] false).bindDevice 0xE001 0xE001 }

theorem allDevice_is : AllDevice allDevice 7 := by
  intro a
  have := a.isLt
  simp only [allDevice, Memory.region, regionAt]
  rw [if_pos ⟨Nat.zero_le _, by omega⟩]

theorem fresh_wf : fresh.mem.wf := constructed_wf _

theorem mixed_wf (sp : Byte) : (mixed sp).mem.wf :=
  bindDevice_wf _ _ _ (bindBytes_wf _ _ _ _ _ (constructed_wf _) (by decide)) (by decide)

theorem witness_DecodeOfEncodeIsTheInstruction :
    (Instr.ldaAbsx 0xFFFF).wellFormed = true ∧ (Instr.illegal 0x03).wellFormed = true ∧ (Instr.illegal 0xFF).wellFormed = true := by
  decide

theorem witness_EncodeOfDecodeIsTheBytes : decode [0x8D, 0xFF, 0x00, 0xEA] = .ok (.staAbs 0x00FF, [0xEA]) := rfl

theorem witness_AssembledInstructionDecodesToItself :
    (Instr.jmpInd 0x10FF).mnemonic ≠ .illegal ∧ branchByte 0x0300 0x0381 = .ok 0x7F ∧ branchByte 0x0300 0x0282 = .ok 0x80 := by
  refine ⟨by decide, rfl, rfl⟩

theorem witness_BranchByteIsTheReducedDisplacement :
    let d : Word → Int := fun t => (t.toNat : Int) - (0x0300#16).toNat - 2
    d 0x0282 = -128 ∧ d 0x0381 = 127 ∧ ¬(-128 ≤ d 0x0281) ∧ ¬(d 0x0382 ≤ 127) := by decide

theorem witness_OperandBytesFormTheOperand :
    (build 0xA9 0xFF 0x80).form = .imm 0xFF ∧
    (build 0xB6 0xFF 0x80).form ∈ [Form.mem (.zp 0xFF), .mem (.zpx 0xFF), .mem (.zpy 0xFF), .mem (.izx 0xFF), .mem (.izy 0xFF)] ∧
    (build 0x6C 0xFF 0x80).form ∈ [Form.mem (.abs 0x80FF), .mem (.absx 0x80FF), .mem (.absy 0x80FF), .mem (.ind 0x80FF)] ∧
    (build 0xD0 0x80 0xFF).form = .rel 0x80 ∧ (build 0xD0 0x7F 0xFF).form = .rel 0x7F := by decide

theorem witness_StepRunsTheDecodedInstruction :
    let s := start [0x8D, 0xFF, 0x00] 0xFFFE [] fresh
    s.halted = false ∧ s.fault = none ∧ (Instr.staAbs 0x00FF).wellFormed = true ∧
      ∀ k, k < (Instr.staAbs 0x00FF).length →
        s.mem.peek (s.pc + BitVec.ofNat 16 k) = (encode (.staAbs 0x00FF))[k]? := by decide

theorem witness_StepStopsExactlyWhenNotRunning :
    ({ fresh with halted := true } : State).halted = true ∧
    (let s : State := { fresh with fault := some ⟨.stackOverflow, 0x48, 0x0300⟩ };
      s.halted = false ∧ s.fault = some ⟨.stackOverflow, 0x48, 0x0300⟩) ∧
    (fresh.halted = false ∧ fresh.fault = none) := by decide

theorem witness_IllegalOpcodeRecordsItsFault :
    (ready [0x03]).halted = false ∧ (ready [0x03]).fault = none ∧
      (memRead (ready [0x03]).pc (ready [0x03]).drawBus).1 = 0x03 ∧ isIllegalByte 0x03 = true := by decide

theorem witness_ResetLeavesTheListedValues :
    (State.launch Config.defaults (Memory.launched Config.defaults [])).halted = true ∧
    (fresh.halted = false ∧ fresh.fault = none) := by decide

theorem witness_DefaultMapAndContents :
    (0xF6FF#16).toNat ≤ 0xF6FF ∧ (0xF700 ≤ (0xF700#16).toNat ∧ (0xF700#16).toNat ≤ 0xFFF9) ∧
    (0xF700 ≤ (0xFFF9#16).toNat ∧ (0xFFF9#16).toNat ≤ 0xFFF9) ∧ 0xFFFA ≤ (0xFFFA#16).toNat ∧ (0xFFFD#16).toNat = 0xFFFD := by decide

theorem witness_MapReplacesExactlyItsRange :
    let s := State.launch Config.defaults (Memory.constructed Config.defaults)
    s.mem.wf ∧ s.running = false ∧ (0xFFFF ≤ 0xFFFF ∧ 0xFFFF + 1 - 0xFFFF ≤ [0x5A].length) ∧
      ((0xFFFF#16).toNat = 0xFFFF ∧ (0xFFFE#16).toNat < 0xFFFF) ∧ [0x5A].length < 0xFFFF + 1 - 0xFFFE ∧ 0x20 < 0x21 :=
  ⟨constructed_wf _, by decide⟩

theorem witness_ReadIsDispatchedByRegion :
    (mixed 0xFF).mem.region 0xE000 = .store 4 0xE000 false ∧ (mixed 0xFF).mem.region 0xE001 = .device 0 ∧
      (mixed 0xFF).mem.region 0xF700 = .unmapped ∧ (mixed 0xFF).mem.peek 0xE000 = some 0x5A := by decide

theorem witness_WriteIsDispatchedByRegion :
    (mixed 0xFF).mem.wf ∧ (mixed 0xFF).mem.region 0xF6FF = .store 0 0 true ∧
      (mixed 0xFF).mem.region 0xE000 = .store 4 0xE000 false ∧ (mixed 0xFF).mem.region 0xE001 = .device 0 ∧
      (mixed 0xFF).mem.region 0xFFF9 = .unmapped := ⟨mixed_wf _, by decide⟩

theorem witness_WordReadIsTwoByteReads :
    (0x0000#16).toNat = ((0xFFFF#16).toNat + 1) % 65536 ∧ (0x0101#16).toNat = ((0x0100#16).toNat + 1) % 65536 := by decide

theorem witness_PushWritesThenMovesDown :
    fresh.mem.wf ∧ (mixed 0x00).sp = 0x00#8 ∧ (mixed 0x01).sp ≠ 0x00#8 := ⟨fresh_wf, by decide⟩

theorem witness_PopReadsAndUndoesPush :
    (mixed 0xFF).sp = 0xFF#8 ∧ (mixed 0xFE).sp ≠ 0xFF#8 ∧ (mixed 0x01).mem.wf ∧
      (mixed 0x01).mem.writtenCell (stackCell (mixed 0x01).sp) ≠ none ∧
      ∃ t, push 0x0300 0x42 (mixed 0x01) = .ok t :=
  ⟨by decide, by decide, mixed_wf _, by decide, _, rfl⟩

theorem witness_PointerModesComputeTheirAddress :
    let s : State := poke [(0x00FF, 0x34), (0x0100, 0x12), (0xFFFF, 0x34), (0x0000, 0x12)] { fresh with x := 0x01 }
    (s.mem.peek 0xFFFF = some 0x34 ∧ s.mem.peek (BitVec.ofNat 16 (((0xFFFF#16).toNat + 1) % 65536)) = some 0x12) ∧
    ((0xFF#8).toNat = ((0xFE#8).toNat + s.x.toNat) % 256 ∧ s.mem.peek (BitVec.ofNat 16 (0xFF#8).toNat) = some 0x34 ∧
      s.mem.peek (BitVec.ofNat 16 (if s.params.zpPtrWrap then ((0xFF#8).toNat + 1) % 256 else (0xFF#8).toNat + 1)) = some 0x12) ∧
    s.params.iySameByte = true ∧
    ({ s with params := { s.params with iySameByte := false } } : State).params.iySameByte = false := by decide

theorem witness_ResolveMakesItsAccessesInOrder :
    AllDevice allDevice 7 ∧ AllDevice { allDevice with pc := 0xFFFF } 7 ∧ allDevice.halted = false ∧ allDevice.fault = none :=
  ⟨allDevice_is, allDevice_is, rfl, rfl⟩

theorem witness_ExecuteMakesOnlyItsAccesses :
    AllDevice allDevice 7 ∧ allDevice.params.addr0SelectsAcc = false ∧
      (∃ t, exec (.staZp 0x10) allDevice = .next t) ∧ (∃ t, exec (.ldaZp 0x10) allDevice = .next t) ∧
      (Instr.staZp 0x10).mnemonic = .sta ∧ (Instr.ldaZp 0x10).mnemonic = .lda :=
  ⟨allDevice_is, rfl, ⟨_, rfl⟩, ⟨_, rfl⟩, rfl, rfl⟩

theorem witness_LoadsTakeTheOperandValue :
    (Instr.ldaIzy 0xFF).mnemonic = .lda ∧ (Instr.ldxZpy 0xFF).mnemonic = .ldx ∧ (Instr.ldyAbsx 0xFFFF).mnemonic = .ldy := by decide

theorem witness_StoresWriteTheRegister :
    (mixed 0xFF).mem.wf ∧ (Instr.staAbs 0xE001).mnemonic = .sta ∧ (Instr.stxZpy 0xFF).mnemonic = .stx ∧
      (Instr.styZpx 0xFF).mnemonic = .sty := ⟨mixed_wf _, by decide⟩

theorem witness_PushInstructionsPush : fresh.mem.wf ∧ (mixed 0x01).sp ≠ 0x00#8 ∧ (mixed 0x00).sp = 0x00#8 := ⟨fresh_wf, by decide⟩

theorem witness_PullInstructionsPull : (mixed 0xFE).sp ≠ 0xFF#8 ∧ (mixed 0xFF).sp = 0xFF#8 := by decide

theorem witness_LogicOperationsLoadA :
    (Instr.oraImm 0xF0).mnemonic = .ora ∧ (Instr.andIzx 0xFF).mnemonic = .and ∧ (Instr.eorAbsy 0xFFFF).mnemonic = .eor := by decide

theorem witness_AddAndSubtractWrapWithoutCarry : (Instr.adcImm 0x01).mnemonic = .adc ∧ (Instr.sbcAbs 0x1234).mnemonic = .sbc := by
  decide

theorem witness_ComparesUseTheExactDifference :
    ((Instr.cmpImm 0xFF).mnemonic = .cmp ∧ 0x00 = fresh.a) ∧ ((Instr.cpxZp 0x10).mnemonic = .cpx ∧ 0x00 = fresh.x) ∧
      ((Instr.cpyAbs 0x1234).mnemonic = .cpy ∧ 0x00 = fresh.y) := by decide

theorem witness_BitTestSetsNVZ : (Instr.bitAbs 0xFFFF).mnemonic = .bit := by decide

theorem witness_IncrementsModifyMemory :
    (mixed 0xFF).mem.wf ∧ (Instr.incAbs 0xE000).mnemonic = .inc ∧ (Instr.decZpx 0xFF).mnemonic = .dec := ⟨mixed_wf _, by decide⟩

/-- The three cases of a shift: the accumulator form, a memory form at 0x0000 that selects A, and a memory form that does not. -/
theorem witness_ShiftsMoveTheirBits :
    let s : State := { fresh with params := { Config.defaults with addr0SelectsAcc := true } }
    fresh.mem.wf ∧ s.mem.wf ∧ (Instr.rolAcc.mnemonic ∈ [Mnemonic.asl, .lsr, .rol, .ror] ∧ Instr.rolAcc.mode = .acc) ∧
      ((Instr.aslZp 0x00).mnemonic = .asl ∧ s.params.addr0SelectsAcc = true ∧
        (resolve (Instr.aslZp 0x00).form s).ea = some 0x0000#16) ∧
      ((Instr.aslZp 0x00).mode ≠ .acc ∧
        ¬(fresh.params.addr0SelectsAcc = true ∧ (resolve (Instr.aslZp 0x00).form fresh).ea = some 0x0000#16)) :=
  ⟨fresh_wf, fresh_wf, by decide⟩

theorem witness_BranchesAddTheirDisplacement :
    (Instr.bne 0x80).mnemonic ∈ [Mnemonic.bpl, .bmi, .bvc, .bvs, .bcc, .bcs, .bne, .beq] ∧ branchHolds .bne fresh.flags = true ∧
      branchHolds .beq fresh.flags = false := by decide

theorem witness_JumpSetsPc : (Instr.jmpAbs 0x1234).mnemonic = .jmp ∧ (Instr.jmpInd 0x10FF).mnemonic = .jmp := by decide

theorem witness_JumpToSubroutinePushesPc :
    fresh.mem.wf ∧ 2 ≤ (mixed 0x02).sp.toNat ∧ (mixed 0x01).sp.toNat = 1 ∧ (mixed 0x00).sp.toNat = 0 := ⟨fresh_wf, by decide⟩

theorem witness_ReturnFromSubroutinePullsPc :
    (mixed 0xFD).sp.toNat ≤ 0xFD ∧ (mixed 0xFE).sp.toNat = 0xFE ∧ (mixed 0xFF).sp.toNat = 0xFF := by decide

theorem witness_BreakTakesTheTrap :
    (mixed 0x02).mem.wf ∧ 2 ≤ (mixed 0x02).sp.toNat ∧ (mixed 0x01).sp.toNat = 1 ∧ (mixed 0x00).sp.toNat = 0 :=
  ⟨mixed_wf _, by decide⟩

theorem witness_ReturnFromBreakClearsBAndI :
    (mixed 0xFD).sp.toNat ≤ 0xFD ∧ (mixed 0xFE).sp.toNat = 0xFE ∧ (mixed 0xFF).sp.toNat = 0xFF := by decide

theorem witness_ReturnsUndoTheirCalls :
    (mixed 0x02).mem.wf ∧ 2 ≤ (mixed 0x02).sp.toNat ∧ StackPairWritable (mixed 0x02) ∧
      (∃ t, exec (.jsrAbs 0x1234) (mixed 0x02) = .next t) ∧ ∃ t, exec .brk (mixed 0x02) = .next t :=
  ⟨mixed_wf _, by decide, ⟨by decide, by decide, by decide⟩, ⟨_, rfl⟩, _, rfl⟩

theorem witness_HaltStopsTheCore : ∃ t, exec .hlt fresh = .next t := ⟨_, rfl⟩

theorem witness_OnlyListedInstructionsWriteAFlag :
    (∃ t, exec (.staZp 0x10) fresh = .next t) ∧ (Instr.staZp 0x10).mnemonic ∉ [Mnemonic.lda, .bit, .plp, .brk, .rti, .sed, .cld] :=
  ⟨⟨_, rfl⟩, by decide⟩

theorem witness_OnlyListedInstructionsWriteARegister :
    (∃ t, exec (.aslZp 0x10) fresh = .next t) ∧ fresh.params.addr0SelectsAcc = false ∧ (Instr.aslZp 0x10).mode ≠ .acc ∧
      (Instr.aslZp 0x10).mode ≠ .rel ∧ (Instr.aslZp 0x10).mnemonic ∉ [Mnemonic.ldx, .ldy, .txs, .jmp] := ⟨⟨_, rfl⟩, by decide⟩

theorem witness_NonStoringInstructionsKeepMemory :
    (∃ t, exec .rorAcc fresh = .next t) ∧ Instr.rorAcc.mode = .acc ∧ (∃ t, exec (.jmpInd 0x10FF) fresh = .next t) ∧
      (Instr.jmpInd 0x10FF).mnemonic ∉ [Mnemonic.sta, .stx, .sty, .inc, .dec, .asl, .lsr, .rol, .ror, .pha, .php, .jsr, .brk] :=
  ⟨⟨_, rfl⟩, rfl, ⟨_, rfl⟩, by decide⟩

theorem witness_OnlyListedInstructionsRaiseAFault :
    (∃ t, exec .pha (mixed 0x00) = .next t ∧ t.fault ≠ (mixed 0x00).fault) ∧
    (∃ t, exec .plp (mixed 0xFF) = .next t ∧ t.fault ≠ (mixed 0xFF).fault) ∧
    (∃ t, exec (.jsrAbs 0x1234) (mixed 0x01) = .next t ∧ t.fault ≠ (mixed 0x01).fault) ∧
    (∃ t, exec .rts (mixed 0xFE) = .next t ∧ t.fault ≠ (mixed 0xFE).fault) ∧
    ∃ t, exec (.illegal 0xFF) (mixed 0xFF) = .next t ∧ t.fault ≠ (mixed 0xFF).fault :=
  ⟨⟨_, rfl, by decide⟩, ⟨_, rfl, by decide⟩, ⟨_, rfl, by decide⟩, ⟨_, rfl, by decide⟩, _, rfl, by decide⟩

theorem witness_OnlyHaltHalts : (∃ t, exec .hlt fresh = .next t) ∧ ∃ t, exec .nop fresh = .next t := ⟨⟨_, rfl⟩, _, rfl⟩

theorem witness_DecimalFlagIsInert : (Instr.adcImm 0x01).mnemonic ∉ [Mnemonic.php, .plp, .cld, .sed] := by decide

theorem witness_InterruptFlagIsInert : (Instr.jsrAbs 0x1234).mnemonic ∉ [Mnemonic.php, .plp, .cli, .sei, .brk, .rti] := by decide

theorem witness_MapAndParametersAreConstantInARun :
    (∃ t, step (ready [0x85, 0x00]) = .next t) ∧ fresh.halted = false ∧ fresh.fault = none := ⟨⟨_, rfl⟩, by decide⟩

theorem witness_EveryStepKeepsTheInvariant : ∃ s t : State, s.Inv ∧ step s = .next t :=
  ⟨{ fresh with pc := 0x1234 }, _,
    { memory := fresh_wf
      haltDrivesBus := fun h => by simp [fresh, State.reset] at h
      faultNotHalted := fun h => by simp [fresh, State.reset] at h
      faultRecord := fun r h => by simp [fresh, State.reset] at h }, rfl⟩

theorem witness_ResetMeetsTheInvariant : (mixed 0x00).mem.wf := mixed_wf _

end Sys2Proof.Tests
end

section
/-! PROOFS. The state: what executing any instruction can do to it, said once (`Effect`), and the statements of
10_state.md that follow from it. -/

namespace Sys2Proof.Machine

open Sys2Proof

/-! ### Execute by mnemonic (70_reset_and_hazards.md R149)

`exec` has one arm for each row of the opcode map. What an arm does depends on the row's mnemonic and on what `Resolve` gives
for its form, so one arm for each mnemonic says the same (`exec_eq_execute`). -/

/-- What `Resolve` gives for a form (30_encoding.md R56), an absent part being zero. -/
def operand (f : Form) (s : State) : MemOperand where
  ea := (resolve f s).ea.getD 0
  v := (resolve f s).v.getD 0
  st := (resolve f s).st

/-- A shift or rotate in either form (43_incdec_shift.md R96). -/
def shiftOperand (k : Shift) (d : Mode) (s : State) (o : MemOperand) : Host.Outcome State Fault Refusal :=
  if d = .acc then .next (shiftA k o.st)
  else if s.params.addr0SelectsAcc = true ∧ o.ea = 0x0000#16 then .next (shiftA k o.st)
  else .next (shiftCell k o)

/-- INC and DEC of the cell at the effective address (43_incdec_shift.md R97, R98). -/
def replaceCell (o : MemOperand) (r : Byte) : Host.Outcome State Fault Refusal :=
  .next ((memWrite o.ea r o.st).setFlags (o.st.flags.setNZ r))

/-- `Execute(d.mnemonic, d.mode, ea, v)` (70_reset_and_hazards.md R149) for an opcode fetched from `a`. -/
def execute (m : Mnemonic) (f : Form) (a : Word) (s : State) : Host.Outcome State Fault Refusal :=
  let o := operand f s
  match m with
  | .lda => .next (load .a o.v o.st)
  | .ldx => .next (load .x o.v o.st)
  | .ldy => .next (load .y o.v o.st)
  | .sta => .next (memWrite o.ea o.st.a o.st)
  | .stx => .next (memWrite o.ea o.st.x o.st)
  | .sty => .next (memWrite o.ea o.st.y o.st)
  | .tax => .next (transfer .x .a o.st)
  | .tay => .next (transfer .y .a o.st)
  | .txa => .next (transfer .a .x o.st)
  | .tya => .next (transfer .a .y o.st)
  | .tsx => .next (transfer .x .sp o.st)
  | .txs => .next (transfer .sp .x o.st)
  | .ora => .next (oraA o.v o.st)
  | .and => .next (andA o.v o.st)
  | .eor => .next (eorA o.v o.st)
  | .adc => .next (adcA o.v o.st)
  | .sbc => .next (sbcA o.v o.st)
  | .inx => .next (load .x (o.st.x + 1#8) o.st)
  | .dex => .next (load .x (o.st.x - 1#8) o.st)
  | .iny => .next (load .y (o.st.y + 1#8) o.st)
  | .dey => .next (load .y (o.st.y - 1#8) o.st)
  | .cmp => .next (compareReg .a o.v o.st)
  | .cpx => .next (compareReg .x o.v o.st)
  | .cpy => .next (compareReg .y o.v o.st)
  | .bit => .next (bitA o.v o.st)
  | .inc => replaceCell o (o.v + 1#8)
  | .dec => replaceCell o (o.v - 1#8)
  | .asl => shiftOperand asl f.mode s o
  | .lsr => shiftOperand lsr f.mode s o
  | .rol => shiftOperand rol f.mode s o
  | .ror => shiftOperand ror f.mode s o
  | .bpl => branch (!s.flags.n) o.v o.st
  | .bmi => branch s.flags.n o.v o.st
  | .bvc => branch (!s.flags.v) o.v o.st
  | .bvs => branch s.flags.v o.v o.st
  | .bcc => branch (!s.flags.c) o.v o.st
  | .bcs => branch s.flags.c o.v o.st
  | .bne => branch (!s.flags.z) o.v o.st
  | .beq => branch s.flags.z o.v o.st
  | .jmp => .next (o.st.setPc o.ea)
  | .jsr => finish ((pushWord a o.st.pc o.st).map fun u => u.setPc o.ea)
  | .pha => finish (push a s.a s)
  | .php => finish (push a s.flags.pack s)
  | .pla => finish (pullA a s)
  | .plp => finish (pullFlags a s)
  | .rts => finish (returnFromSub a s)
  | .brk => finish (takeBreak a s)
  | .rti => finish (returnFromBreak a s)
  | .clc => .next (s.setFlags { s.flags with c := false })
  | .sec => .next (s.setFlags { s.flags with c := true })
  | .cli => .next (s.setFlags { s.flags with i := false })
  | .sei => .next (s.setFlags { s.flags with i := true })
  | .clv => .next (s.setFlags { s.flags with v := false })
  | .cld => .next (s.setFlags { s.flags with d := false })
  | .sed => .next (s.setFlags { s.flags with d := true })
  | .nop => .next s
  | .hlt => .next s.halt
  | .illegal => .next (raiseFault .unimplementedOpcode a s)

theorem jumpToSub_eq_map (a : Word) (m : MemForm) (s : State) :
    jumpToSub a m s =
      (pushWord a (resolveMem m s).st.pc (resolveMem m s).st).map fun u => u.setPc (resolveMem m s).ea := by
  unfold jumpToSub
  cases pushWord a (resolveMem m s).st.pc (resolveMem m s).st <;> rfl

/-- Every row does what its mnemonic and its form say. -/
theorem exec_eq_execute (i : Instr) (s : State) : exec i s = execute i.mnemonic i.form (opcodeAddr i s) s := by
  cases i with
  | jsrAbs w => exact congrArg finish (jumpToSub_eq_map _ _ s)
  | _ => rfl

/-! ### What reads, writes and the stack touch -/

/-- `s` with SP, memory and the devices' view replaced: all that reads, writes, pushes and pops touch. -/
def State.touched (s : State) (p : Byte) (m : Memory) (l : List DevAccess) (n : Nat) : State :=
  { s with sp := p, mem := m, devLog := l, draws := n }

section
variable (s : State) (p : Byte) (m : Memory) (l : List DevAccess) (n : Nat)
@[simp] theorem touched_a : (s.touched p m l n).a = s.a := rfl
@[simp] theorem touched_x : (s.touched p m l n).x = s.x := rfl
@[simp] theorem touched_y : (s.touched p m l n).y = s.y := rfl
@[simp] theorem touched_pc : (s.touched p m l n).pc = s.pc := rfl
@[simp] theorem touched_sp : (s.touched p m l n).sp = p := rfl
@[simp] theorem touched_flags : (s.touched p m l n).flags = s.flags := rfl
@[simp] theorem touched_ir : (s.touched p m l n).ir = s.ir := rfl
@[simp] theorem touched_bus : (s.touched p m l n).bus = s.bus := rfl
@[simp] theorem touched_halted : (s.touched p m l n).halted = s.halted := rfl
@[simp] theorem touched_fault : (s.touched p m l n).fault = s.fault := rfl
@[simp] theorem touched_mem : (s.touched p m l n).mem = m := rfl
@[simp] theorem touched_params : (s.touched p m l n).params = s.params := rfl
@[simp] theorem touched_devLog : (s.touched p m l n).devLog = l := rfl
@[simp] theorem touched_draws : (s.touched p m l n).draws = n := rfl
@[simp] theorem touched_touched (p' : Byte) (m' : Memory) (l' : List DevAccess) (n' : Nat) :
    (s.touched p m l n).touched p' m' l' n' = s.touched p' m' l' n' := rfl
end

/-- `m'` is `m` after writes: the map is kept (20_memory.md R42), and so is the canonical form. -/
structure Memory.Written (m m' : Memory) : Prop where
  map : m'.bindings = m.bindings
  wf : m.wf → m'.wf

theorem Memory.Written.refl (m : Memory) : m.Written m := ⟨rfl, id⟩

theorem Memory.Written.trans {m₁ m₂ m₃ : Memory} (h : m₁.Written m₂) (h' : m₂.Written m₃) : m₁.Written m₃ :=
  ⟨h'.map.trans h.map, fun hw => h'.wf (h.wf hw)⟩

theorem memRead_touched (a : Word) (s : State) : ∃ l n, (memRead a s).2 = s.touched s.sp s.mem l n :=
  ⟨_, _, memRead_frame a s⟩

theorem memWrite_touched (a : Word) (v : Byte) (s : State) :
    ∃ m l, memWrite a v s = s.touched s.sp m l s.draws ∧ s.mem.Written m :=
  ⟨_, _, memWrite_frame a v s, memWrite_bindings a v s, memWrite_wf a v s⟩

theorem read16_touched (a : Word) (s : State) : ∃ l n, (read16 a s).2 = s.touched s.sp s.mem l n :=
  ⟨_, _, read16_frame a s⟩

theorem operand_touched (f : Form) (s : State) : ∃ l n, (operand f s).st = s.touched s.sp s.mem l n :=
  ⟨_, _, afterReads_resolve f s⟩

theorem push_touched (a : Word) (v : Byte) (s : State) :
    (s.sp = 0x00#8 ∧ push a v s = .error (raiseFault .stackOverflow a s)) ∨
    ∃ m l, push a v s = .ok (s.touched (s.sp - 1#8) m l s.draws) ∧ s.mem.Written m := by
  rcases push_cases a v s with h | ⟨-, h⟩
  · exact .inl h
  · obtain ⟨m, l, hw, hm⟩ := memWrite_touched (stackAddr s.sp) v s
    exact .inr ⟨m, l, by rw [h, hw]; rfl, hm⟩

theorem pop_touched (a : Word) (s : State) :
    (s.sp = 0xFF#8 ∧ pop a s = .error (raiseFault .stackUnderflow a s)) ∨
    ∃ v l n, pop a s = .ok (v, s.touched (s.sp + 1#8) s.mem l n) := by
  rcases pop_cases a s with h | ⟨-, h⟩
  · exact .inl h
  · obtain ⟨l, n, hr⟩ := memRead_touched (stackAddr (s.sp + 1#8)) (s.setReg .sp (s.sp + 1#8))
    exact .inr ⟨_, l, n, by rw [h, ← Prod.mk.eta (p := memRead _ _), hr]; rfl⟩

/-- A word push fails where SP leaves room for one byte or none (10_state.md R25). -/
theorem pushWord_touched (a w : Word) (s : State) :
    (∃ p m l, s.sp.toNat ≤ 1 ∧ pushWord a w s = .error (raiseFault .stackOverflow a (s.touched p m l s.draws)) ∧
      s.mem.Written m) ∨
    ∃ p m l, pushWord a w s = .ok (s.touched p m l s.draws) ∧ s.mem.Written m := by
  unfold pushWord
  rcases push_touched a (hiByte w) s with ⟨h0, h⟩ | ⟨m, l, h, hm⟩ <;> rw [h]
  · exact .inl ⟨s.sp, s.mem, s.devLog, by simp [h0], rfl, .refl _⟩
  · rcases push_touched a (loByte w) (s.touched (s.sp - 1#8) m l s.draws) with ⟨h1, h'⟩ | ⟨m', l', h', hm'⟩
    · simp only [touched_sp] at h1
      exact .inl ⟨_, m, l, by bv_omega, h', hm⟩
    · exact .inr ⟨_, m', l', h', hm.trans hm'⟩

/-- A word pull fails where the stack holds one byte or none (10_state.md R25). -/
theorem popWord_touched (a : Word) (s : State) :
    (∃ p l n, 0xFE ≤ s.sp.toNat ∧ popWord a s = .error (raiseFault .stackUnderflow a (s.touched p s.mem l n))) ∨
    ∃ w p l n, popWord a s = .ok (w, s.touched p s.mem l n) := by
  unfold popWord
  rcases pop_touched a s with ⟨h0, h⟩ | ⟨lo, l, n, h⟩ <;> rw [h]
  · exact .inl ⟨s.sp, s.devLog, s.draws, by simp [h0], rfl⟩
  · simp only
    rcases pop_touched a (s.touched (s.sp + 1#8) s.mem l n) with ⟨h1, h'⟩ | ⟨hi, l', n', h'⟩ <;> rw [h']
    · simp only [touched_sp] at h1
      exact .inl ⟨_, l, n, by bv_omega, rfl⟩
    · exact .inr ⟨_, _, l', n', rfl⟩

/-! ### What an instruction can do -/

/-- The mnemonics that are `Load(r, v)` of a value (10_state.md R29), the pulls apart. -/
def loads : Reg → List Mnemonic
  | .a => [.lda, .txa, .tya, .ora, .and, .eor, .adc, .sbc]
  | .x => [.ldx, .tax, .tsx, .inx, .dex]
  | .y => [.ldy, .tay, .iny, .dey]
  | .sp => [.txs]

/-- The mnemonics that write a register to memory (40_load_store.md R72 to R74). -/
def stores : List Mnemonic := [.sta, .stx, .sty]
/-- The shifts and rotates (43_incdec_shift.md R103 to R106). -/
def shifts : List Mnemonic := [.asl, .lsr, .rol, .ror]
/-- The compares (42_alu.md R92 to R94). -/
def compares : List Mnemonic := [.cmp, .cpx, .cpy]
/-- The branches (44_control.md R108 to R115). -/
def branches : List Mnemonic := [.bpl, .bmi, .bvc, .bvs, .bcc, .bcs, .bne, .beq]

/-- Everything that executing mnemonic `m` in mode `d`, its opcode fetched from `a`, can make of `s`. -/
inductive Effect (d : Mode) (a : Word) (s : State) : Mnemonic → State → Prop
  | load {m} (r v l n) (hm : m ∈ loads r) : Effect d a s m (load r v (s.touched s.sp s.mem l n))
  | store {m} (c l n) (hm : m ∈ stores) (hc : s.mem.Written c) : Effect d a s m (s.touched s.sp c l n)
  | replace {m} (v c l n) (hm : m ∈ [Mnemonic.inc, .dec]) (hc : s.mem.Written c) :
      Effect d a s m ((s.touched s.sp c l n).setFlags (s.flags.setNZ v))
  | shiftA {m} (b v l n) (hm : m ∈ shifts) (hd : d = .acc ∨ s.params.addr0SelectsAcc = true) :
      Effect d a s m (((s.touched s.sp s.mem l n).setReg .a v).setFlags (s.flags.shifted b v))
  | shiftCell {m} (b v c l n) (hm : m ∈ shifts) (hd : d ≠ .acc) (hc : s.mem.Written c) :
      Effect d a s m ((s.touched s.sp c l n).setFlags (s.flags.shifted b v))
  | compare {m} (b r v l n) (hm : m ∈ compares) :
      Effect d a s m ((s.touched s.sp s.mem l n).setFlags (s.flags.compare b r v))
  | bitTest (v l n) : Effect d a s .bit ((s.touched s.sp s.mem l n).setFlags (s.flags.bitTest s.a v))
  | branch {m} (w l n) (hm : m ∈ branches) : Effect d a s m ((s.touched s.sp s.mem l n).setPc w)
  | jump (w l n) : Effect d a s .jmp ((s.touched s.sp s.mem l n).setPc w)
  | call (w p c l n) (hc : s.mem.Written c) : Effect d a s .jsr ((s.touched p c l n).setPc w)
  | ret (w p l n) : Effect d a s .rts ((s.touched p s.mem l n).setPc w)
  | trap (w p c l n) (hc : s.mem.Written c) :
      Effect d a s .brk (((s.touched p c l n).setPc w).setFlags { s.flags with b := true, i := true })
  | trapRet (w p l n) :
      Effect d a s .rti (((s.touched p s.mem l n).setFlags { s.flags with b := false, i := false }).setPc w)
  | push {m} (p c l n) (hm : m ∈ [Mnemonic.pha, .php]) (hc : s.mem.Written c) : Effect d a s m (s.touched p c l n)
  | pullA (v p l n) : Effect d a s .pla (Machine.load .a v (s.touched p s.mem l n))
  | pullFlags (f p l n) : Effect d a s .plp ((s.touched p s.mem l n).setFlags f)
  | overflow {m} (p c l n)
      (hm : m ∈ [Mnemonic.pha, .php] ∧ s.sp.toNat = 0 ∨ m ∈ [Mnemonic.jsr, .brk] ∧ s.sp.toNat ≤ 1)
      (hc : s.mem.Written c) : Effect d a s m (raiseFault .stackOverflow a (s.touched p c l n))
  | underflow {m} (p l n)
      (hm : m ∈ [Mnemonic.pla, .plp] ∧ s.sp.toNat = 0xFF ∨ m = .rts ∧ 0xFE ≤ s.sp.toNat) :
      Effect d a s m (raiseFault .stackUnderflow a (s.touched p s.mem l n))
  | trapRetUnderflow (p l n) (hsp : 0xFE ≤ s.sp.toNat) :
      Effect d a s .rti
        (raiseFault .stackUnderflow a ((s.touched p s.mem l n).setFlags { s.flags with b := false, i := false }))
  | setC {m} (b) (hm : m ∈ [Mnemonic.clc, .sec]) : Effect d a s m (s.setFlags { s.flags with c := b })
  | setI {m} (b) (hm : m ∈ [Mnemonic.cli, .sei]) : Effect d a s m (s.setFlags { s.flags with i := b })
  | setD {m} (b) (hm : m ∈ [Mnemonic.cld, .sed]) : Effect d a s m (s.setFlags { s.flags with d := b })
  | clearV : Effect d a s .clv (s.setFlags { s.flags with v := false })
  | nop : Effect d a s .nop s
  | halt : Effect d a s .hlt s.halt
  | illegal : Effect d a s .illegal (raiseFault .unimplementedOpcode a s)

section
variable {m : Mnemonic} {d : Mode} {a : Word} (f : Form) (s : State)

theorem effect_load {r : Reg} (v : Byte) (hm : m ∈ loads r) : Effect d a s m (load r v (operand f s).st) := by
  obtain ⟨l, n, h⟩ := operand_touched f s
  rw [h]
  exact .load r v l n hm

theorem memWrite_operand (v : Byte) :
    ∃ c l n, memWrite (operand f s).ea v (operand f s).st = s.touched s.sp c l n ∧ s.mem.Written c := by
  obtain ⟨l, n, h⟩ := operand_touched f s
  rw [h]
  obtain ⟨c, l', hw, hc⟩ := memWrite_touched (operand f s).ea v (s.touched s.sp s.mem l n)
  exact ⟨c, l', n, hw, hc⟩

theorem operand_flags : (operand f s).st.flags = s.flags := by
  obtain ⟨l, n, h⟩ := operand_touched f s
  rw [h, touched_flags]

theorem effect_store (v : Byte) (hm : m ∈ stores) :
    Effect d a s m (memWrite (operand f s).ea v (operand f s).st) := by
  obtain ⟨c, l, n, h, hc⟩ := memWrite_operand f s v
  rw [h]
  exact .store c l n hm hc

theorem effect_replaceCell (v : Byte) (hm : m ∈ [Mnemonic.inc, .dec]) :
    ∃ t, replaceCell (operand f s) v = .next t ∧ Effect d a s m t := by
  obtain ⟨c, l, n, h, hc⟩ := memWrite_operand f s v
  refine ⟨_, rfl, ?_⟩
  rw [h, operand_flags]
  exact .replace v c l n hm hc

theorem effect_shiftA (k : Shift) (hm : m ∈ shifts) (hd : d = .acc ∨ s.params.addr0SelectsAcc = true) :
    Effect d a s m (shiftA k (operand f s).st) := by
  obtain ⟨l, n, h⟩ := operand_touched f s
  rw [h]
  exact .shiftA _ _ l n hm hd

theorem effect_shiftOperand (k : Shift) (hm : m ∈ shifts) :
    ∃ t, shiftOperand k d s (operand f s) = .next t ∧ Effect d a s m t := by
  unfold shiftOperand
  split
  · next hd => exact ⟨_, rfl, effect_shiftA f s k hm (.inl hd)⟩
  · next hd =>
    split
    · next ha => exact ⟨_, rfl, effect_shiftA f s k hm (.inr ha.1)⟩
    · refine ⟨_, rfl, ?_⟩
      unfold shiftCell
      simp only
      obtain ⟨c, l, n, h, hc⟩ := memWrite_operand f s (k.result (operand f s).v (operand f s).st.flags.c)
      rw [h, operand_flags]
      exact .shiftCell _ _ c l n hm hd hc

theorem effect_compareReg (r : Reg) (v : Byte) (hm : m ∈ compares) :
    Effect d a s m (compareReg r v (operand f s).st) := by
  obtain ⟨l, n, h⟩ := operand_touched f s
  rw [h]
  exact .compare _ _ v l n hm

theorem effect_branch (cond : Bool) (v : Byte) (hm : m ∈ branches) :
    ∃ t, branch cond v (operand f s).st = .next t ∧ Effect d a s m t := by
  obtain ⟨l, n, h⟩ := operand_touched f s
  refine ⟨_, rfl, ?_⟩
  rw [h]
  split
  · exact .branch _ l n hm
  · exact .branch s.pc l n hm

theorem effect_push (v : Byte) (hm : m ∈ [Mnemonic.pha, .php]) :
    ∃ t, finish (push a v s) = .next t ∧ Effect d a s m t := by
  rcases push_touched a v s with ⟨h0, h⟩ | ⟨c, l, h, hc⟩ <;> rw [h] <;> refine ⟨_, rfl, ?_⟩
  · exact .overflow s.sp s.mem s.devLog s.draws (.inl ⟨hm, by simp [h0]⟩) (.refl _)
  · exact .push _ c l _ hm hc

theorem effect_pullA : ∃ t, finish (pullA a s) = .next t ∧ Effect d a s .pla t := by
  unfold pullA
  rcases pop_touched a s with ⟨h0, h⟩ | ⟨v, l, n, h⟩ <;> rw [h] <;> refine ⟨_, rfl, ?_⟩
  · exact .underflow s.sp s.devLog s.draws (.inl ⟨by decide, by simp [h0]⟩)
  · exact .pullA v _ l n

theorem effect_pullFlags : ∃ t, finish (pullFlags a s) = .next t ∧ Effect d a s .plp t := by
  unfold pullFlags
  rcases pop_touched a s with ⟨h0, h⟩ | ⟨v, l, n, h⟩ <;> rw [h] <;> refine ⟨_, rfl, ?_⟩
  · exact .underflow s.sp s.devLog s.draws (.inl ⟨by decide, by simp [h0]⟩)
  · exact .pullFlags _ _ l n

theorem effect_call (w : Word) :
    ∃ t, finish ((pushWord a (operand f s).st.pc (operand f s).st).map fun u => u.setPc w) = .next t ∧
      Effect d a s .jsr t := by
  obtain ⟨l, n, h⟩ := operand_touched f s
  rw [h]
  rcases pushWord_touched a s.pc (s.touched s.sp s.mem l n) with ⟨p, c, l', h0, h', hc⟩ | ⟨p, c, l', h', hc⟩ <;>
    rw [touched_pc, h'] <;> refine ⟨_, rfl, ?_⟩
  · exact .overflow p c l' n (.inr ⟨by decide, h0⟩) hc
  · exact .call w p c l' n hc

theorem effect_returnFromSub : ∃ t, finish (returnFromSub a s) = .next t ∧ Effect d a s .rts t := by
  unfold returnFromSub
  rcases popWord_touched a s with ⟨p, l, n, h0, h⟩ | ⟨w, p, l, n, h⟩ <;> rw [h] <;> refine ⟨_, rfl, ?_⟩
  · exact .underflow p l n (.inr ⟨rfl, h0⟩)
  · exact .ret w p l n

theorem effect_takeBreak : ∃ t, finish (takeBreak a s) = .next t ∧ Effect d a s .brk t := by
  unfold takeBreak
  rcases pushWord_touched a s.pc s with ⟨p, c, l, h0, h, hc⟩ | ⟨p, c, l, h, hc⟩ <;> rw [h] <;> refine ⟨_, rfl, ?_⟩
  · exact .overflow p c l s.draws (.inr ⟨by decide, h0⟩) hc
  · obtain ⟨l', n', h'⟩ := read16_touched Config.irqVector (s.touched p c l s.draws)
    simp only [h']
    exact .trap _ p c l' n' hc

theorem effect_returnFromBreak : ∃ t, finish (returnFromBreak a s) = .next t ∧ Effect d a s .rti t := by
  unfold returnFromBreak returnFromSub
  rcases popWord_touched a (s.setFlags { s.flags with b := false, i := false }) with
    ⟨p, l, n, h0, h⟩ | ⟨w, p, l, n, h⟩ <;> rw [h] <;> refine ⟨_, rfl, ?_⟩
  · exact .trapRetUnderflow p l n h0
  · exact .trapRet w p l n

end

/-- Every mnemonic answers a next state, and that state is one of its effects. -/
theorem execute_effect (m : Mnemonic) (f : Form) (a : Word) (s : State) :
    ∃ t, execute m f a s = .next t ∧ Effect f.mode a s m t := by
  obtain ⟨l, n, hst⟩ := operand_touched f s
  cases m with
  | lda | txa | tya | ora | and | eor | adc | sbc => exact ⟨_, rfl, effect_load f s (r := .a) _ (by decide)⟩
  | ldx | tax | tsx | inx | dex => exact ⟨_, rfl, effect_load f s (r := .x) _ (by decide)⟩
  | ldy | tay | iny | dey => exact ⟨_, rfl, effect_load f s (r := .y) _ (by decide)⟩
  | txs => exact ⟨_, rfl, effect_load f s (r := .sp) _ (by decide)⟩
  | sta | stx | sty => exact ⟨_, rfl, effect_store f s _ (by decide)⟩
  | inc | dec => exact effect_replaceCell f s _ (by decide)
  | asl | lsr | rol | ror => exact effect_shiftOperand f s _ (by decide)
  | cmp | cpx | cpy => exact ⟨_, rfl, effect_compareReg f s _ _ (by decide)⟩
  | bit => exact ⟨_, rfl, by rw [hst]; exact .bitTest _ l n⟩
  | bpl | bmi | bvc | bvs | bcc | bcs | bne | beq => exact effect_branch f s _ _ (by decide)
  | jmp => exact ⟨_, rfl, by rw [hst]; exact .jump _ l n⟩
  | jsr => exact effect_call f s _
  | pha | php => exact effect_push s _ (by decide)
  | pla => exact effect_pullA s
  | plp => exact effect_pullFlags s
  | rts => exact effect_returnFromSub s
  | brk => exact effect_takeBreak s
  | rti => exact effect_returnFromBreak s
  | clc | sec => exact ⟨_, rfl, .setC _ (by decide)⟩
  | cli | sei => exact ⟨_, rfl, .setI _ (by decide)⟩
  | cld | sed => exact ⟨_, rfl, .setD _ (by decide)⟩
  | clv => exact ⟨_, rfl, .clearV⟩
  | nop => exact ⟨_, rfl, .nop⟩
  | hlt => exact ⟨_, rfl, .halt⟩
  | illegal => exact ⟨_, rfl, .illegal⟩

/-- What is true of every effect is true of every instruction. -/
theorem effect_of_exec {i : Instr} {s t : State} (h : exec i s = .next t) :
    Effect i.mode (opcodeAddr i s) s i.mnemonic t := by
  obtain ⟨u, hu, he⟩ := execute_effect i.mnemonic i.form (opcodeAddr i s) s
  rw [exec_eq_execute, hu] at h
  cases h
  exact he

end Sys2Proof.Machine
end

section
/-! PROOFS. What every instruction keeps, and the statements of 10_state.md that follow from it. -/

namespace Sys2Proof.Machine

open Sys2Proof

/-! ### The decoder gives an instruction its own opcode (30_encoding.md R59) -/

/-- The operand bytes take no part in the opcode or in the well-formedness of what is built. -/
theorem build_operands_irrelevant (op b1 b2 : Byte) :
    (build op b1 b2).opcode = (build op 0 0).opcode ∧ (build op b1 b2).wellFormed = (build op 0 0).wellFormed := by
  unfold build decodeRow0 decodeRow1 decodeRow2 decodeRow3 decodeRow4 decodeRow5 decodeRow6 decodeRow7
  unfold decodeRow8 decodeRow9 decodeRowA decodeRowB decodeRowC decodeRowD decodeRowE decodeRowF
  split <;> split <;> exact ⟨rfl, rfl⟩

theorem build_opcode (op b1 b2 : Byte) : (build op b1 b2).opcode = op := by
  have h : ∀ op : Byte, (build op 0 0).opcode = op := by decide
  rw [(build_operands_irrelevant op b1 b2).1, h]

theorem build_wellFormed (op b1 b2 : Byte) : (build op b1 b2).wellFormed = true := by
  have h : ∀ op : Byte, (build op 0 0).wellFormed = true := by decide
  rw [(build_operands_irrelevant op b1 b2).2, h]

theorem fetchInstr_eq_build (s : State) : ∃ b1 b2, (fetchInstr s).1 = build (fetchOpcode s).1 b1 b2 := by
  unfold fetchInstr
  simp only
  split
  · exact ⟨_, _, rfl⟩
  · exact ⟨_, _, rfl⟩
  · exact ⟨_, _, rfl⟩

theorem fetchInstr_opcode (s : State) : (fetchInstr s).1.opcode = (fetchInstr s).2.ir := by
  obtain ⟨b1, b2, h⟩ := fetchInstr_eq_build s
  rw [h, build_opcode, fetchInstr_frame]

theorem fetchInstr_wellFormed (s : State) : (fetchInstr s).1.wellFormed = true := by
  obtain ⟨b1, b2, h⟩ := fetchInstr_eq_build s
  rw [h, build_wellFormed]

/-! ### What mnemonics say of instructions -/

theorem eq_hlt_of_mnemonic {i : Instr} (h : i.mnemonic = .hlt) : i = .hlt := by
  cases i with
  | hlt => rfl
  | _ => simp [Instr.mnemonic] at h

/-- The mnemonics that can raise a kind of fault (60_exceptions.md R130). -/
def FaultKind.raisers : FaultKind → List Mnemonic
  | .unimplementedOpcode => [.illegal]
  | .stackOverflow => [.pha, .php, .jsr, .brk]
  | .stackUnderflow => [.pla, .plp, .rts, .rti]

theorem mem_overflow_raisers {m : Mnemonic} {p q : Prop} (h : m ∈ [.pha, .php] ∧ p ∨ m ∈ [.jsr, .brk] ∧ q) :
    m ∈ FaultKind.stackOverflow.raisers := by
  rcases h with ⟨h, -⟩ | ⟨h, -⟩
  · exact (by decide : [.pha, .php] ⊆ FaultKind.stackOverflow.raisers) h
  · exact (by decide : [.jsr, .brk] ⊆ FaultKind.stackOverflow.raisers) h

theorem mem_underflow_raisers {m : Mnemonic} {p q : Prop} (h : m ∈ [.pla, .plp] ∧ p ∨ m = .rts ∧ q) :
    m ∈ FaultKind.stackUnderflow.raisers := by
  rcases h with ⟨h, -⟩ | ⟨rfl, -⟩
  · exact (by decide : [.pla, .plp] ⊆ FaultKind.stackUnderflow.raisers) h
  · decide

theorem raisedBy_of_mem_raisers {i : Instr} {k : FaultKind} (hw : i.wellFormed = true) (h : i.mnemonic ∈ k.raisers) :
    k.raisedBy i.opcode = true := by
  cases k with
  | unimplementedOpcode =>
    cases i with
    | illegal op => exact hw
    | _ => simp [Instr.mnemonic, FaultKind.raisers] at h
  | stackOverflow =>
    cases i with
    | pha | php | jsrAbs | brk => rfl
    | _ => simp [Instr.mnemonic, FaultKind.raisers] at h
  | stackUnderflow =>
    cases i with
    | pla | plp | rts | rti => rfl
    | _ => simp [Instr.mnemonic, FaultKind.raisers] at h

theorem mode_of_branch {i : Instr} (h : i.mnemonic ∈ branches) : i.mode = .rel := by
  cases i with
  | bpl | bmi | bvc | bvs | bcc | bcs | bne | beq => rfl
  | _ => simp [Instr.mnemonic, branches] at h

/-! ### What every effect keeps -/

section
variable {d : Mode} {a : Word} {s t : State} {m : Mnemonic} (h : Effect d a s m t)
include h

theorem Effect.ir : t.ir = s.ir := by
  cases h <;> simp

theorem Effect.memory : s.mem.Written t.mem := by
  cases h with
  | store c _ _ _ hc | replace _ c _ _ _ hc | shiftCell _ _ c _ _ _ _ hc | call _ _ c _ _ hc | trap _ _ c _ _ hc
  | push _ c _ _ _ hc | overflow _ c _ _ _ hc => exact hc
  | _ => simp [Memory.Written.refl]

/-- Only HLT touches the run state and, after the fetch, BUS (10_state.md R32, R33). -/
theorem Effect.halted_bus (hm : m ≠ .hlt) : t.halted = s.halted ∧ t.bus = s.bus := by
  cases h with
  | halt => exact absurd rfl hm
  | _ => simp

/-- A fault is recorded with IR and the opcode's address, by a mnemonic that can raise it (60_exceptions.md R130, R132). -/
theorem Effect.fault : t.fault = s.fault ∨ ∃ k, t.fault = some ⟨k, s.ir, a⟩ ∧ m ∈ k.raisers := by
  cases h with
  | overflow _ _ _ _ hm => exact .inr ⟨_, rfl, mem_overflow_raisers hm⟩
  | underflow _ _ _ hm => exact .inr ⟨_, rfl, mem_underflow_raisers hm⟩
  | trapRetUnderflow => exact .inr ⟨_, rfl, by decide⟩
  | illegal => exact .inr ⟨_, rfl, by decide⟩
  | _ => simp

end

/-! ### The invariant -/

theorem stopped_eq_none {s : State} (h : stopped s = none) : s.halted = false ∧ s.fault = none := by
  unfold stopped at h
  split at h
  · cases h
  · next hh =>
    split at h
    · cases h
    · next hf => exact ⟨by simpa using hh, hf⟩

/-- A step is possible only while the core runs, and is then the fetch and the execution (70_reset_and_hazards.md R149). -/
theorem running_of_step {s t : State} (h : step s = .next t) :
    s.halted = false ∧ s.fault = none ∧ exec (fetchInstr s).1 (fetchInstr s).2 = .next t := by
  unfold step at h
  split at h
  · cases h
  · next hs => exact ⟨(stopped_eq_none hs).1, (stopped_eq_none hs).2, h⟩

/-- A core that is neither halted nor faulted meets the invariant when its memory is canonical. -/
theorem inv_of_running {s : State} (hmem : s.mem.wf) (hrun : s.halted = false) (hfault : s.fault = none) : s.Inv where
  memory := hmem
  haltDrivesBus h := by simp [hrun] at h
  faultNotHalted _ := hrun
  faultRecord r h := by simp [hfault] at h

/-- Executing an instruction whose opcode is in IR, on a running core, gives a state that meets the invariant. -/
theorem inv_of_exec {i : Instr} {u t : State} (hmem : u.mem.wf) (hrun : u.halted = false) (hfault : u.fault = none)
    (hop : i.opcode = u.ir) (hwf : i.wellFormed = true) (h : exec i u = .next t) : t.Inv := by
  have he := effect_of_exec h
  by_cases hm : i.mnemonic = .hlt
  · obtain rfl := eq_hlt_of_mnemonic hm
    obtain rfl : u.halt = t := by simpa [exec, execHlt] using h
    exact
      { memory := hmem
        haltDrivesBus := fun _ => ⟨rfl, hop.symm⟩
        faultNotHalted := fun hs => by simp [hfault] at hs
        faultRecord := fun r hr => by simp [hfault] at hr }
  · have hhalt : t.halted = false := (he.halted_bus hm).1.trans hrun
    refine ⟨he.memory.wf hmem, fun ht => by simp [hhalt] at ht, fun _ => hhalt, fun r hr => ?_⟩
    rcases he.fault with hf | ⟨k, hf, hk⟩
    · simp [hf, hfault] at hr
    · obtain rfl : ⟨k, u.ir, opcodeAddr i u⟩ = r := by simpa [hf] using hr
      exact ⟨he.ir.symm, by simpa [hop] using raisedBy_of_mem_raisers hwf hk⟩

/-! ### Flags and registers an instruction keeps -/

section
variable (f : Flags)
@[simp] theorem setNZ_v (v : Byte) : (f.setNZ v).v = f.v := rfl
@[simp] theorem setNZ_b (v : Byte) : (f.setNZ v).b = f.b := rfl
@[simp] theorem setNZ_d (v : Byte) : (f.setNZ v).d = f.d := rfl
@[simp] theorem setNZ_i (v : Byte) : (f.setNZ v).i = f.i := rfl
@[simp] theorem setNZ_c (v : Byte) : (f.setNZ v).c = f.c := rfl
@[simp] theorem shifted_v (c : Bool) (r : Byte) : (f.shifted c r).v = f.v := rfl
@[simp] theorem shifted_b (c : Bool) (r : Byte) : (f.shifted c r).b = f.b := rfl
@[simp] theorem shifted_d (c : Bool) (r : Byte) : (f.shifted c r).d = f.d := rfl
@[simp] theorem shifted_i (c : Bool) (r : Byte) : (f.shifted c r).i = f.i := rfl
@[simp] theorem compare_v (b7 : Bool) (r v : Byte) : (f.compare b7 r v).v = f.v := rfl
@[simp] theorem compare_b (b7 : Bool) (r v : Byte) : (f.compare b7 r v).b = f.b := rfl
@[simp] theorem compare_d (b7 : Bool) (r v : Byte) : (f.compare b7 r v).d = f.d := rfl
@[simp] theorem compare_i (b7 : Bool) (r v : Byte) : (f.compare b7 r v).i = f.i := rfl
@[simp] theorem bitTest_b (a v : Byte) : (f.bitTest a v).b = f.b := rfl
@[simp] theorem bitTest_d (a v : Byte) : (f.bitTest a v).d = f.d := rfl
@[simp] theorem bitTest_i (a v : Byte) : (f.bitTest a v).i = f.i := rfl
@[simp] theorem bitTest_c (a v : Byte) : (f.bitTest a v).c = f.c := rfl
end

/-- The mnemonics that write N and Z (10_state.md R30). -/
def nzWriters : List Mnemonic :=
  [.lda, .ldx, .ldy, .tax, .tay, .txa, .tya, .tsx, .txs, .pla, .inx, .iny, .dex, .dey, .ora, .and, .eor,
   .adc, .sbc, .inc, .dec, .asl, .lsr, .rol, .ror, .cmp, .cpx, .cpy, .bit, .plp]

theorem loads_subset_nzWriters (r : Reg) : loads r ⊆ nzWriters := by
  cases r <;> decide

/-- A statement about the mnemonics outside a list says nothing of one that the list holds. -/
theorem vacuous_of_subset {m : Mnemonic} {l w : List Mnemonic} {p : Prop} (hm : m ∈ l) (h : l ⊆ w) : m ∉ w → p :=
  fun hn => absurd (h hm) hn

section
variable {d : Mode} {a : Word} {s t : State} {m : Mnemonic} (h : Effect d a s m t)
include h

/-- The table of 10_state.md R30: outside a flag's column, an instruction keeps the flag. -/
theorem Effect.flags :
    (m ∉ nzWriters → t.flags.n = s.flags.n ∧ t.flags.z = s.flags.z) ∧
    (m ∉ [.asl, .lsr, .rol, .ror, .cmp, .cpx, .cpy, .clc, .sec, .plp] → t.flags.c = s.flags.c) ∧
    (m ∉ [.bit, .clv, .plp] → t.flags.v = s.flags.v) ∧ (m ∉ [.brk, .rti, .plp] → t.flags.b = s.flags.b) ∧
    (m ∉ [.sed, .cld, .plp] → t.flags.d = s.flags.d) ∧
    (m ∉ [.sei, .cli, .brk, .rti, .plp] → t.flags.i = s.flags.i) := by
  cases h with
  | load r _ _ _ hm => exact ⟨vacuous_of_subset hm (loads_subset_nzWriters r), by simp⟩
  | replace _ _ _ _ hm => exact ⟨vacuous_of_subset hm (by decide), by simp⟩
  | shiftA _ _ _ _ hm | shiftCell _ _ _ _ _ hm | compare _ _ _ _ _ hm =>
    exact ⟨vacuous_of_subset hm (by decide), vacuous_of_subset hm (by decide), by simp⟩
  | setC _ hm => exact ⟨by simp, vacuous_of_subset hm (by decide), by simp⟩
  | setD _ hm => exact ⟨by simp, by simp, by simp, by simp, vacuous_of_subset hm (by decide), by simp⟩
  | setI _ hm => exact ⟨by simp, by simp, by simp, by simp, by simp, vacuous_of_subset hm (by decide)⟩
  | bitTest | pullA | pullFlags => simp [nzWriters]
  | _ => simp

/-- Outside a register's writers, an instruction keeps the register (10_state.md R18, R20). -/
theorem Effect.registers (hb : m ∈ branches → d = .rel) :
    (m ∉ [.lda, .txa, .tya, .pla, .ora, .and, .eor, .adc, .sbc, .asl, .lsr, .rol, .ror] → t.a = s.a) ∧
    (s.params.addr0SelectsAcc = false → d ≠ .acc → m ∈ [.asl, .lsr, .rol, .ror] → t.a = s.a) ∧
    (m ∉ [.ldx, .tax, .tsx, .inx, .dex] → t.x = s.x) ∧ (m ∉ [.ldy, .tay, .iny, .dey] → t.y = s.y) ∧
    (m ∉ [.txs, .pha, .php, .pla, .plp, .jsr, .rts, .brk, .rti] → t.sp = s.sp) ∧
    (d ≠ .rel → m ∉ [.jmp, .jsr, .rts, .brk, .rti] → t.pc = s.pc) := by
  cases h with
  | load r v _ _ hm =>
    cases r with
    | a =>
      have hs : ∀ m ∈ loads .a, m ∉ shifts := by decide
      exact ⟨vacuous_of_subset hm (by decide), fun _ _ hshift => absurd hshift (hs m hm), by simp⟩
    | x => exact ⟨by simp, by simp, vacuous_of_subset hm (by decide), by simp⟩
    | y => exact ⟨by simp, by simp, by simp, vacuous_of_subset hm (by decide), by simp⟩
    | sp => exact ⟨by simp, by simp, by simp, by simp, vacuous_of_subset hm (by decide), by simp⟩
  | shiftA _ _ _ _ hm hd =>
    refine ⟨vacuous_of_subset hm (by decide), fun hp hacc => ?_, by simp⟩
    rcases hd with hd | hd
    · exact absurd hd hacc
    · simp [hp] at hd
  | branch _ _ _ hm => exact ⟨by simp, by simp, by simp, by simp, by simp, fun hd => absurd (hb hm) hd⟩
  | push _ _ _ _ hm => exact ⟨by simp, by simp, by simp, by simp, vacuous_of_subset hm (by decide), by simp⟩
  | overflow _ _ _ _ hm =>
    exact ⟨by simp, by simp, by simp, by simp, vacuous_of_subset (mem_overflow_raisers hm) (by decide), by simp⟩
  | underflow _ _ _ hm =>
    exact ⟨by simp, by simp, by simp, by simp, vacuous_of_subset (mem_underflow_raisers hm) (by decide), by simp⟩
  | _ => simp

end

/-! ### The stack -/

theorem backingCell_eq_writtenCell {m : Memory} {a : Word} (h : m.writtenCell a ≠ none) :
    m.backingCell a = m.writtenCell a := by
  unfold Memory.writtenCell Memory.backingCell at *
  cases hr : m.region a with
  | store id base w =>
    cases w with
    | true => rfl
    | false => simp [hr] at h
  | device d => rfl
  | unmapped => rfl

/-- A writable address reads as the byte last written there. -/
theorem peek_memWrite_same {a : Word} {s : State} (v : Byte) (hw : s.mem.wf) (h : s.mem.writtenCell a ≠ none) :
    (memWrite a v s).mem.peek a = some v := by
  rw [peek_memWrite _ _ _ _ hw, if_pos ⟨h, backingCell_eq_writtenCell h⟩]

/-- A pop after a push into a writable cell gives the byte back and restores SP (10_state.md R24). -/
theorem pop_after_push (a : Word) (v : Byte) (s : State) (hw : s.mem.wf)
    (hc : s.mem.writtenCell (stackAddr s.sp) ≠ none) (h0 : s.sp ≠ 0x00#8) :
    pop a ((memWrite (stackAddr s.sp) v s).setReg .sp (s.sp - 1#8)) =
      .ok (v, ((memWrite (stackAddr s.sp) v s).setReg .sp (s.sp - 1#8)).setReg .sp s.sp) := by
  have hsp : s.sp - 1#8 + 1#8 = s.sp := BitVec.sub_add_cancel ..
  rcases pop_cases a ((memWrite (stackAddr s.sp) v s).setReg .sp (s.sp - 1#8)) with ⟨h, -⟩ | ⟨-, h⟩
  · rw [setReg_sp_sp] at h
    exact absurd (show s.sp = 0x00#8 by bv_omega) h0
  · rw [h, setReg_sp_sp, hsp, memRead_of_peek]
    simpa using peek_memWrite_same v hw hc

/-! ### Reset (70_reset_and_hazards.md R146) -/

/-- `s` with the registers that reset writes, PC at `w`, the devices having seen and answered what they have in `u`. -/
def State.clearedAt (s : State) (w : Word) (u : State) : State :=
  { s.cleared with pc := w, devLog := u.devLog, draws := u.draws }

section
variable {s u : State} (h : u.mem = s.mem)
include h

theorem memRead_clearedAt (a w : Word) :
    memRead a (s.clearedAt w u) = ((memRead a u).1, s.clearedAt w (memRead a u).2) :=
  memRead_congr a u _ h.symm rfl rfl

theorem fetch_clearedAt (w : Word) :
    fetch (s.clearedAt w u) = ((memRead w u).1, s.clearedAt (w + 1#16) (memRead w u).2) := by
  unfold fetch
  rw [show (s.clearedAt w u).pc = w from rfl, memRead_clearedAt h]
  rfl

end

/-- Reset is the fixed register values, PC from the word in the RESET vector, and the dummy read at that target. -/
theorem resetSequence_eq (s : State) :
    resetSequence s =
      s.clearedAt (read16 Config.resetVector s).1
        (memRead (read16 Config.resetVector s).1 (read16 Config.resetVector s).2).2 := by
  have hlo : fetch s.cleared = _ := fetch_clearedAt (u := s) rfl Config.resetVector
  have hhi := fetch_clearedAt (memRead_mem Config.resetVector s) (Config.resetVector + 1#16)
  unfold resetSequence
  simp only [hlo, hhi]
  rw [memRead_clearedAt (by simp)]
  rfl

/-- The host's reset goes ahead on a core that does not run (93_implementation_defined.md U12). -/
theorem hostReset_of_stopped {s : State} (h : s.halted = true ∨ s.fault ≠ none) : hostReset s = .next (resetSequence s) := by
  have hr : stopped s ≠ none := fun hn => by
    obtain ⟨hh, hf⟩ := stopped_eq_none hn
    simp [hh, hf] at h
  simp [hostReset, State.running, hr]

theorem hostReset_of_running {s : State} (hh : s.halted = false) (hf : s.fault = none) :
    hostReset s = .refused .coreRunning := by
  simp [hostReset, State.running, stopped, hh, hf]

end Sys2Proof.Machine

namespace Sys2Proof.Proofs

open Sys2Proof Sys2Proof.Machine

/-- Settles O59: the fetch leaves a running core with the opcode in IR, and no effect of an instruction breaks the invariant. -/
theorem everyStepKeepsTheInvariant : Obligations.EveryStepKeepsTheInvariant := by
  intro s t hs h
  obtain ⟨hhalt, hfault, hexec⟩ := running_of_step h
  have hf := fetchInstr_frame s
  have hmem : (fetchInstr s).2.mem = s.mem := by rw [hf]
  have hrun : (fetchInstr s).2.halted = s.halted := by rw [hf]
  have hno : (fetchInstr s).2.fault = s.fault := by rw [hf]
  exact inv_of_exec (hmem ▸ hs.memory) (hrun.trans hhalt) (hno.trans hfault) (fetchInstr_opcode s)
    (fetchInstr_wellFormed s) hexec

/-- Settles O51: every effect keeps the flags outside its columns of R30's table. -/
theorem onlyListedInstructionsWriteAFlag : Obligations.OnlyListedInstructionsWriteAFlag :=
  fun _ _ _ h => (effect_of_exec h).flags

/-- Settles O52: every effect keeps the registers that its mnemonic is not listed for, and IR. -/
theorem onlyListedInstructionsWriteARegister : Obligations.OnlyListedInstructionsWriteARegister := by
  intro i s t h
  have he := effect_of_exec h
  obtain ⟨ha, hshift, hx, hy, hsp, hpc⟩ := he.registers mode_of_branch
  exact ⟨ha, hshift, hx, hy, hsp, hpc, he.ir⟩

/-- Settles O55: HLT is the one mnemonic whose effect touches the run state. -/
theorem onlyHaltHalts : Obligations.OnlyHaltHalts := by
  intro i s t h
  by_cases hi : i = .hlt
  · subst hi
    obtain rfl : s.halt = t := by simpa [exec, execHlt] using h
    exact .inl ⟨rfl, rfl⟩
  · exact .inr ⟨hi, ((effect_of_exec h).halted_bus fun hm => hi (eq_hlt_of_mnemonic hm)).1⟩

/-- Settles O22: the two cases of `push`, the write being what `Wrote` says. -/
theorem pushWritesThenMovesDown : Obligations.PushWritesThenMovesDown := by
  intro a v s hw
  refine ⟨fun h => if_pos h, fun h => ⟨memWrite (stackCell s.sp) v s, wrote_memWrite _ v s hw, ?_⟩⟩
  rw [← stackAddr_eq_stackCell]
  exact if_neg h

/-- Settles O23: the two cases of `pop`; after a push the cell it reads is the one the push wrote. -/
theorem popReadsAndUndoesPush : Obligations.PopReadsAndUndoesPush := by
  refine ⟨fun a s => ⟨fun h => if_pos h, fun h => ?_⟩, fun a b v s t hw hcell hpush => ?_⟩
  · rw [← stackAddr_eq_stackCell]
    exact if_neg h
  · rcases push_cases a v s with ⟨-, h⟩ | ⟨hsp, h⟩
    · rw [h] at hpush
      cases hpush
    · obtain rfl : (memWrite (stackAddr s.sp) v s).setReg .sp (s.sp - 1#8) = t := by simpa [h] using hpush
      exact pop_after_push b v s hw (stackAddr_eq_stackCell s.sp ▸ hcell) hsp

/-- Settles O20: both laws by running through the 128 flag sets and the 256 bytes. -/
theorem statusBytePacksAndUnpacks : Obligations.StatusBytePacksAndUnpacks := by
  refine ⟨?_, ?_, by decide⟩
  · rintro ⟨n, v, b, d, i, z, c⟩
    revert n v b d i z c
    decide
  · rintro ⟨n, v, b, d, i, z, c⟩
    revert n v b d i z c
    decide

/-- Settles O21: `Load` is its register write with the N and Z of R29. -/
theorem loadSetsOneRegisterAndNZ : Obligations.LoadSetsOneRegisterAndNZ := by
  intro v s
  rw [← setNZ_eq_nzOf]
  exact ⟨rfl, rfl, rfl, rfl⟩

/-- Settles O13: `resetSequence_eq` gives every field; the host's reset asks whether the core runs. -/
theorem resetLeavesTheListedValues : Obligations.ResetLeavesTheListedValues := by
  intro s w t
  have ht : t = _ := resetSequence_eq s
  rw [ht]
  have hpack : Flags.clear.pack = 0x20#8 := by decide
  exact ⟨rfl, rfl, rfl, rfl, rfl, rfl, ⟨rfl, rfl, rfl, rfl, rfl, rfl, rfl⟩, hpack, rfl, rfl, rfl, rfl, rfl, rfl,
    fun h => ht ▸ hostReset_of_stopped h, hostReset_of_running⟩

/-- Settles O60: reset leaves a core that is neither halted nor faulted, and memory as it was. -/
theorem resetMeetsTheInvariant : Obligations.ResetMeetsTheInvariant := by
  refine ⟨inv_of_running (constructed_wf _) rfl rfl, fun s hw => ?_⟩
  have h := resetSequence_eq s
  exact inv_of_running (by rw [h]; exact hw) (by rw [h]; rfl) (by rw [h]; rfl)

end Sys2Proof.Proofs
end

section
/-! PROOFS. The memory subsystem: what the region map answers after a `map`, what a read and a write do in each kind of
region, and the statements of 20_memory.md that follow. -/

namespace Sys2Proof.Machine

open Sys2Proof

/-! ### The region map (R37, R41) -/

section
variable {lo hi a : Nat} {r : Region} {l : List Binding}

theorem regionAt_cons_of_mem (h : lo ≤ a ∧ a ≤ hi) : regionAt (⟨lo, hi, r⟩ :: l) a = r := if_pos h

theorem regionAt_cons_of_not_mem (h : a < lo ∨ hi < a) : regionAt (⟨lo, hi, r⟩ :: l) a = regionAt l a :=
  if_neg (by simp only; omega)

/-- What serves an address is the region of some binding. -/
theorem exists_binding_of_regionAt (h : regionAt l a = r) (hr : r ≠ .unmapped) : ∃ b ∈ l, b.region = r := by
  induction l with
  | nil => exact absurd h.symm hr
  | cons c rest ih =>
    by_cases hc : c.lo ≤ a ∧ a ≤ c.hi
    · exact ⟨c, List.mem_cons_self, (regionAt_cons_of_mem hc).symm.trans h⟩
    · obtain ⟨b, hb, hbr⟩ := ih ((regionAt_cons_of_not_mem (by omega)).symm.trans h)
      exact ⟨b, List.mem_cons_of_mem _ hb, hbr⟩

end

/-! ### A byte of each kind of region -/

/-- The elements of an array are cells in a row. -/
theorem cellOf_eq_add (id k : Nat) : cellOf id k = cellOf id 0 + k := by
  simp [cellOf]

section
variable {m m' : Memory} {a : Word}

theorem peek_of_store {id base : Nat} {w : Bool} (h : m.region a = .store id base w) :
    m.peek a = some (getCell m.cells (cellOf id (a.toNat - base))) := by
  simp [Memory.peek, h]

theorem peek_of_unmapped (h : m.region a = .unmapped) : m.peek a = some 0x00#8 := by
  simp [Memory.peek, h]

theorem writtenCell_of_unmapped (h : m.region a = .unmapped) : m.writtenCell a = none := by
  simp [Memory.writtenCell, h]

/-- A store accepts writes exactly when it is writable (R39). -/
theorem writtenCell_ne_none_iff {id base : Nat} {w : Bool} (h : m.region a = .store id base w) :
    m.writtenCell a ≠ none ↔ w = true := by
  cases w <;> simp [Memory.writtenCell, h]

/-- An address that keeps its region and, if that is a store, its cell's byte reads as before. -/
theorem peek_eq_of_region_eq (hr : m'.region a = m.region a)
    (hc : ∀ id base w, m.region a = .store id base w →
      getCell m'.cells (cellOf id (a.toNat - base)) = getCell m.cells (cellOf id (a.toNat - base))) :
    m'.peek a = m.peek a := by
  unfold Memory.peek
  rw [hr]
  cases h : m.region a with
  | store id base w => exact congrArg some (hc id base w h)
  | device h => rfl
  | unmapped => rfl

end

/-! ### `map` (R41) -/

/-- The array of a store region is older than the one that `map` takes next. -/
theorem lt_freshArray_of_region {m : Memory} {a : Word} {id base : Nat} {w : Bool}
    (h : m.region a = .store id base w) : id < freshArray m.bindings := by
  obtain ⟨b, hb, hbr⟩ := exists_binding_of_regionAt h (by simp)
  exact lt_freshNumber Region.array? _ b id hb (by rw [hbr]; rfl)

section
variable (m : Memory) (lo hi : Nat) (bytes : List Byte) (w : Bool) {a : Word}

theorem bindBytes_region_of_mem (h : lo ≤ a.toNat ∧ a.toNat ≤ hi) :
    (m.bindBytes lo hi bytes w).region a = .store (freshArray m.bindings) lo w :=
  regionAt_cons_of_mem h

theorem bindBytes_region_of_not_mem (h : a.toNat < lo ∨ hi < a.toNat) :
    (m.bindBytes lo hi bytes w).region a = m.region a :=
  regionAt_cons_of_not_mem h

theorem bindDevice_region_of_mem (h : lo ≤ a.toNat ∧ a.toNat ≤ hi) :
    (m.bindDevice lo hi).region a = .device (freshHandler m.bindings) :=
  regionAt_cons_of_mem h

theorem bindDevice_region_of_not_mem (h : a.toNat < lo ∨ hi < a.toNat) : (m.bindDevice lo hi).region a = m.region a :=
  regionAt_cons_of_not_mem h

/-- An address in the range of a new array reads as the array's element. -/
theorem bindBytes_peek_of_mem (hm : m.wf) (h : lo ≤ a.toNat ∧ a.toNat ≤ hi) (hlen : hi + 1 - lo ≤ bytes.length) :
    (m.bindBytes lo hi bytes w).peek a = bytes[a.toNat - lo]? := by
  have hn : a.toNat - lo < bytes.length := by omega
  have hv : (bytes.take (hi + 1 - lo))[a.toNat - lo]? = some bytes[a.toNat - lo] := by
    rw [List.getElem?_take_of_lt (by omega), List.getElem?_eq_getElem hn]
  rw [peek_of_store (bindBytes_region_of_mem m lo hi bytes w h), List.getElem?_eq_getElem hn, cellOf_eq_add]
  exact congrArg some (getCell_setCells_same _ m.cells _ _ _ hm.1 hv)

/-- The cells of a new array lie above every cell in use, so an address outside its range reads as before. -/
theorem bindBytes_peek_of_not_mem (h : a.toNat < lo ∨ hi < a.toNat) :
    (m.bindBytes lo hi bytes w).peek a = m.peek a := by
  refine peek_eq_of_region_eq (bindBytes_region_of_not_mem m lo hi bytes w h) fun id base w' hr => ?_
  have hid := lt_freshArray_of_region hr
  have ha := a.isLt
  refine getCell_setCells_other _ _ _ _ (.inl ?_)
  unfold cellOf
  omega

theorem bindDevice_peek_of_not_mem (h : a.toNat < lo ∨ hi < a.toNat) : (m.bindDevice lo hi).peek a = m.peek a :=
  peek_eq_of_region_eq (bindDevice_region_of_not_mem m lo hi h) fun _ _ _ _ => rfl

end

/-! ### The host's `map` (R42, 93_implementation_defined.md U11, U12) -/

theorem running_iff (s : State) : s.running = true ↔ s.halted = false ∧ s.fault = none := by
  unfold State.running stopped
  cases s.halted <;> cases s.fault <;> simp

section
variable {s : State} {lo hi : Nat} (bytes : List Byte) (w : Bool)

theorem hostMapDevice_of_running (h : s.running = true) : hostMapDevice lo hi s = .refused .coreRunning := if_pos h

theorem hostMapBytes_of_running (h : s.running = true) : hostMapBytes lo hi bytes w s = .refused .coreRunning := if_pos h

theorem hostMapDevice_badRange (hs : s.running = false) (h : hi < lo) : hostMapDevice lo hi s = .refused .badRange := by
  simp [hostMapDevice, hs, validRange, Nat.not_le.mpr h]

theorem hostMapBytes_badRange (hs : s.running = false) (h : hi < lo) :
    hostMapBytes lo hi bytes w s = .refused .badRange := by
  simp [hostMapBytes, hs, validRange, Nat.not_le.mpr h]

theorem hostMapDevice_ok (hs : s.running = false) (h : lo ≤ hi ∧ hi ≤ 0xFFFF) :
    hostMapDevice lo hi s = .next (s.setMem (s.mem.bindDevice lo hi)) := by
  simp [hostMapDevice, hs, validRange, h]

theorem hostMapBytes_shortArray (hs : s.running = false) (h : lo ≤ hi ∧ hi ≤ 0xFFFF)
    (hlen : bytes.length < hi + 1 - lo) : hostMapBytes lo hi bytes w s = .refused .shortArray := by
  simp [hostMapBytes, hs, validRange, h, hlen]

theorem hostMapBytes_ok (hs : s.running = false) (h : lo ≤ hi ∧ hi ≤ 0xFFFF) (hlen : hi + 1 - lo ≤ bytes.length) :
    hostMapBytes lo hi bytes w s = .next (s.setMem (s.mem.bindBytes lo hi bytes w)) := by
  simp [hostMapBytes, hs, validRange, h, Nat.not_lt.mpr hlen]

end

/-! ### The memory of a launch (R43, R44) -/

section
variable (p : Params) (ramInit : List Byte) {a : Word}

theorem launched_region_ram (h : a.toNat ≤ 0xF6FF) : (Memory.launched p ramInit).region a = .store 0 0 true := by
  simp (disch := omega) only [Memory.region, Memory.launched, Memory.constructed, regionAt_cons_of_not_mem,
    regionAt_cons_of_mem]

theorem launched_region_unmapped (h : 0xF700 ≤ a.toNat ∧ a.toNat ≤ 0xFFF9) :
    (Memory.launched p ramInit).region a = .unmapped := by
  simp (disch := omega) only [Memory.region, Memory.launched, Memory.constructed, regionAt_cons_of_not_mem]
  rfl

/-- Each vector is an array of its own above the RAM's cells; the RESET vector's high byte is the cell 0x20001. -/
theorem launched_region_vector (h : 0xFFFA ≤ a.toNat) :
    ∃ id base, (Memory.launched p ramInit).region a = .store id base p.vectorsWritable ∧
      0x10000 ≤ cellOf id (a.toNat - base) ∧ (cellOf id (a.toNat - base) = 0x20001 ↔ a.toNat = 0xFFFD) := by
  have ha := a.isLt
  simp only [Memory.region, Memory.launched, Memory.constructed, cellOf]
  obtain hnmi | hreset | hirq : a.toNat ≤ 0xFFFB ∨ (0xFFFC ≤ a.toNat ∧ a.toNat ≤ 0xFFFD) ∨ 0xFFFE ≤ a.toNat := by omega
  · refine ⟨1, 0xFFFA, ?_, by omega, by omega⟩
    simp (disch := omega) only [regionAt_cons_of_not_mem, regionAt_cons_of_mem]
  · refine ⟨2, 0xFFFC, ?_, by omega, by omega⟩
    simp (disch := omega) only [regionAt_cons_of_not_mem, regionAt_cons_of_mem]
  · refine ⟨3, 0xFFFE, ?_, by omega, by omega⟩
    simp (disch := omega) only [regionAt_cons_of_mem]

theorem cellsWf_nil : cellsWf [] := ⟨.nil, by simp⟩

/-- A cell past the end of RAM_INIT, which fills RAM's cells only, holds its initial byte. -/
theorem launched_getCell_past_ramInit {k : Nat} (h : (ramInit.take 0xF700).length ≤ k) :
    getCell (Memory.launched p ramInit).cells k = Memory.initial k :=
  getCell_setCells_other _ [] _ _ (.inr (by simpa [cellOf] using h))

/-- RAM holds RAM_INIT's bytes, and zero past its end. -/
theorem launched_peek_ram (h : a.toNat ≤ 0xF6FF) :
    (Memory.launched p ramInit).peek a = some (ramInit[a.toNat]?.getD 0x00#8) := by
  have htake : (ramInit.take 0xF700)[a.toNat]? = ramInit[a.toNat]? := List.getElem?_take_of_lt (by omega)
  have hcell : cellOf 0 (a.toNat - 0) = a.toNat := by simp [cellOf]
  rw [peek_of_store (launched_region_ram p ramInit h), hcell]
  cases hv : ramInit[a.toNat]? with
  | some v =>
    have hget := getCell_setCells_same _ [] (cellOf 0 0) _ v cellsWf_nil (htake.trans hv)
    rw [← cellOf_eq_add, show cellOf 0 a.toNat = a.toNat from hcell] at hget
    exact congrArg some hget
  | none =>
    rw [launched_getCell_past_ramInit p ramInit (List.getElem?_eq_none_iff.mp (htake.trans hv))]
    exact congrArg some (if_neg (by omega))

/-- RAM_INIT reaches no vector: the RESET vector reads as ROM_BASE, the others as zero. -/
theorem launched_peek_vector (h : 0xFFFA ≤ a.toNat) :
    (Memory.launched p ramInit).peek a = some (if a.toNat = 0xFFFD then 0xFD#8 else 0x00#8) := by
  obtain ⟨id, base, hr, habove, hreset⟩ := launched_region_vector p ramInit h
  have hlen : (ramInit.take 0xF700).length ≤ 0xF700 := List.length_take_le ..
  rw [peek_of_store hr, launched_getCell_past_ramInit p ramInit (by omega)]
  simp only [Memory.initial, hreset]

theorem launched_writtenCell_vector (h : 0xFFFA ≤ a.toNat) :
    (Memory.launched p ramInit).writtenCell a ≠ none ↔ p.vectorsWritable = true := by
  obtain ⟨_, _, hr, -⟩ := launched_region_vector p ramInit h
  exact writtenCell_ne_none_iff hr

end

/-! ### The dispatcher, region by region (R38, R39) -/

section
variable {a : Word} {s : State}

theorem memRead_of_store {id base : Nat} {w : Bool} (h : s.mem.region a = .store id base w) :
    memRead a s = (getCell s.mem.cells (cellOf id (a.toNat - base)), s) :=
  memRead_of_peek (peek_of_store h)

theorem memRead_of_unmapped (h : s.mem.region a = .unmapped) : memRead a s = (0x00#8, s) :=
  memRead_of_peek (peek_of_unmapped h)

theorem memRead_of_device {d : Nat} (h : s.mem.region a = .device d) :
    memRead a s = (Config.devRead s.draws d a, s.drawn.logDevice (.read d a (Config.devRead s.draws d a))) := by
  simp [memRead, h]

theorem memWrite_of_readOnly {id base : Nat} (v : Byte) (h : s.mem.region a = .store id base false) :
    memWrite a v s = s := by
  simp [memWrite, h]

theorem memWrite_of_unmapped (v : Byte) (h : s.mem.region a = .unmapped) : memWrite a v s = s := by
  simp [memWrite, h]

theorem memWrite_of_device {d : Nat} (v : Byte) (h : s.mem.region a = .device d) :
    memWrite a v s = s.logDevice (.write d a v) := by
  simp [memWrite, h]

/-- A byte written to a writable store is read back (R37, R39). -/
theorem memRead_memWrite_same (v : Byte) (hw : s.mem.wf) (h : s.mem.writtenCell a ≠ none) :
    memRead a (memWrite a v s) = (v, memWrite a v s) :=
  memRead_of_peek (peek_memWrite_same v hw h)

end

/-! ### The parameters (00_scope.md R9) -/

theorem Effect.params {d : Mode} {a : Word} {s t : State} {m : Mnemonic} (h : Effect d a s m t) :
    t.params = s.params := by
  cases h <;> simp

/-- A step keeps what the fetch and every effect of an instruction keep: the region map and the parameters. -/
theorem step_bindings_params {s t : State} (h : step s = .next t) :
    t.mem.bindings = s.mem.bindings ∧ t.params = s.params := by
  obtain ⟨-, -, hexec⟩ := running_of_step h
  have he := effect_of_exec hexec
  have hf := fetchInstr_frame s
  exact ⟨he.memory.map.trans (by rw [hf]), he.params.trans (by rw [hf])⟩

end Sys2Proof.Machine

namespace Sys2Proof.Proofs

open Sys2Proof Sys2Proof.Machine

/-- Settles O15: the region of each of the three ranges, and what RAM_INIT leaves in its cells. -/
theorem defaultMapAndContents : Obligations.DefaultMapAndContents := by
  intro p ramInit a m
  refine ⟨fun h => ⟨launched_region_ram p ramInit h, launched_peek_ram p ramInit h⟩, fun hlo hhi => ?_,
    fun h => ⟨launched_writtenCell_vector p ramInit h, launched_peek_vector p ramInit h⟩, rfl⟩
  have hr := launched_region_unmapped p ramInit ⟨hlo, hhi⟩
  exact ⟨hr, peek_of_unmapped hr, writtenCell_of_unmapped hr⟩

/-- Settles O16: the new binding covers its range only, and its array's cells are above all cells in use. -/
theorem mapReplacesExactlyItsRange : Obligations.MapReplacesExactlyItsRange := by
  intro s lo hi bytes w hm hs
  refine ⟨fun hle hhi hlen => ?_, fun hle hhi => ?_, fun hle hhi hlen => ?_, fun h => ?_⟩
  · refine ⟨s.mem.bindBytes lo hi bytes w, freshArray s.mem.bindings, hostMapBytes_ok bytes w hs ⟨hle, hhi⟩ hlen,
      bindBytes_wf _ _ _ _ _ hm ⟨hle, hhi⟩, fun b hb base w' => freshArray_new _ b base w' hb,
      fun a hlo ha => ?_, fun a ha => ?_⟩
    · have hr := bindBytes_region_of_mem s.mem lo hi bytes w ⟨hlo, ha⟩
      exact ⟨hr, bindBytes_peek_of_mem s.mem lo hi bytes w hm ⟨hlo, ha⟩ hlen, writtenCell_ne_none_iff hr⟩
    · exact ⟨bindBytes_region_of_not_mem s.mem lo hi bytes w ha, bindBytes_peek_of_not_mem s.mem lo hi bytes w ha⟩
  · exact ⟨s.mem.bindDevice lo hi, freshHandler s.mem.bindings, hostMapDevice_ok hs ⟨hle, hhi⟩,
      bindDevice_wf _ _ _ hm ⟨hle, hhi⟩, freshHandler_new _,
      fun a hlo ha => bindDevice_region_of_mem s.mem lo hi ⟨hlo, ha⟩,
      fun a ha => ⟨bindDevice_region_of_not_mem s.mem lo hi ha, bindDevice_peek_of_not_mem s.mem lo hi ha⟩⟩
  · exact hostMapBytes_shortArray bytes w hs ⟨hle, hhi⟩ hlen
  · exact ⟨hostMapBytes_badRange bytes w hs h, hostMapDevice_badRange hs h⟩

/-- Settles O18: one case for each kind of region; the frame of a write is `wrote_memWrite`. -/
theorem writeIsDispatchedByRegion : Obligations.WriteIsDispatchedByRegion := fun _ v s hw =>
  ⟨wrote_memWrite _ v s hw, fun _ _ h => memRead_memWrite_same v hw ((writtenCell_ne_none_iff h).mpr rfl),
    fun _ _ => memWrite_of_readOnly v, fun _ => memWrite_of_device v, memWrite_of_unmapped v⟩

/-- Settles O19: the second address is `a + 1` as a 16-bit word. -/
theorem wordReadIsTwoByteReads : Obligations.WordReadIsTwoByteReads := by
  intro a b s hb
  obtain rfl : b = a + 1#16 := BitVec.eq_of_toNat_eq (by simpa [BitVec.toNat_add] using hb)
  exact ⟨wordOf_toNat _ _, rfl⟩

/-- Settles O58: no effect of an instruction touches the map or a parameter; the host's `map` asks whether the core runs. -/
theorem mapAndParametersAreConstantInARun : Obligations.MapAndParametersAreConstantInARun := by
  refine ⟨fun _ _ => step_bindings_params, fun s _ _ bytes w hh hf => ?_⟩
  have hr : s.running = true := (running_iff s).mpr ⟨hh, hf⟩
  exact ⟨hostMapDevice_of_running hr, hostMapBytes_of_running bytes w hr⟩

/-- Settles O17: one case for each kind of region. -/
theorem readIsDispatchedByRegion : Obligations.ReadIsDispatchedByRegion := fun _ _ =>
  ⟨fun _ _ _ => memRead_of_store, fun _ => memRead_of_device, memRead_of_unmapped, fun _ => memRead_of_peek⟩

end Sys2Proof.Proofs
end

section
/-! PROOFS. The encoding: the descriptor that an opcode byte fixes, the decoder as the inverse of the encoder, and the
assembler's contract about bytes. -/

namespace Sys2Proof

/-! ### The operand of a form (30_encoding.md R54, R58) -/

/-- The form that mode `d` makes of the two bytes after the opcode (R58); a mode takes as many of them as it has. -/
def Mode.formOf (d : Mode) (b1 b2 : Byte) : Form :=
  match d with
  | .imp => .imp
  | .acc => .acc
  | .imm => .imm b1
  | .rel => .rel b1
  | .zp => .mem (.zp b1)
  | .zpx => .mem (.zpx b1)
  | .zpy => .mem (.zpy b1)
  | .izx => .mem (.izx b1)
  | .izy => .mem (.izy b1)
  | .abs => .mem (.abs (wordOf b2 b1))
  | .absx => .mem (.absx (wordOf b2 b1))
  | .absy => .mem (.absy (wordOf b2 b1))
  | .ind => .mem (.ind (wordOf b2 b1))

@[simp] theorem formOf_mode (d : Mode) (b1 b2 : Byte) : (d.formOf b1 b2).mode = d := by
  cases d <;> rfl

@[simp] theorem formOf_bytes (d : Mode) (b1 b2 : Byte) : (d.formOf b1 b2).bytes = [b1, b2].take d.operandBytes := by
  cases d with
  | abs | absx | absy | ind => simp [Mode.formOf, Form.bytes, MemForm.bytes, Mode.operandBytes]
  | _ => rfl

/-- A form is what its mode makes of its own bytes. -/
theorem form_eq_formOf (f : Form) : f = f.mode.formOf (f.bytes.getD 0 0) (f.bytes.getD 1 0) := by
  cases f with
  | mem m =>
    cases m with
    | abs w | absx w | absy w | ind w =>
      simp [Form.mode, MemForm.mode, Mode.formOf, Form.bytes, MemForm.bytes]
    | _ => rfl
  | _ => rfl

theorem form_bytes_length (f : Form) : f.bytes.length = f.mode.operandBytes := by
  cases f with
  | mem m => cases m <;> rfl
  | _ => rfl

theorem operandBytes_le_two (d : Mode) : d.operandBytes ≤ 2 := by
  cases d <;> decide

/-- At most two bytes are what their first two entries are. -/
theorem take_getD_of_length_le_two {l : List Byte} (h : l.length ≤ 2) : [l.getD 0 0, l.getD 1 0].take l.length = l := by
  match l, h with
  | [], _ => rfl
  | [_], _ => rfl
  | [_, _], _ => rfl

/-! ### The descriptor of an opcode byte (R55, R59, R64) -/

/-- The opcode byte fixes the mnemonic and the mode, and the mode says how the operand bytes are read. -/
theorem build_descriptor (op b1 b2 : Byte) :
    (build op b1 b2).mnemonic = (build op 0 0).mnemonic ∧ (build op b1 b2).form = (build op 0 0).mode.formOf b1 b2 := by
  unfold build decodeRow0 decodeRow1 decodeRow2 decodeRow3 decodeRow4 decodeRow5 decodeRow6 decodeRow7
  unfold decodeRow8 decodeRow9 decodeRowA decodeRowB decodeRowC decodeRowD decodeRowE decodeRowF
  split <;> split <;> exact ⟨rfl, rfl⟩

theorem build_mnemonic (op b1 b2 : Byte) : (build op b1 b2).mnemonic = (build op 0 0).mnemonic :=
  (build_descriptor op b1 b2).1

theorem build_form (op b1 b2 : Byte) : (build op b1 b2).form = (build op 0 0).mode.formOf b1 b2 :=
  (build_descriptor op b1 b2).2

theorem build_mode (op b1 b2 : Byte) : (build op b1 b2).mode = (build op 0 0).mode := by
  rw [Instr.mode, build_form, formOf_mode]

theorem build_length (op b1 b2 : Byte) : (build op b1 b2).length = 1 + operandCount op := by
  rw [Instr.length, build_mode, operandCount]

theorem operandCount_le_two (op : Byte) : operandCount op ≤ 2 := operandBytes_le_two _

theorem build_form_bytes (op b1 b2 : Byte) : (build op b1 b2).form.bytes = [b1, b2].take (operandCount op) := by
  rw [build_form, formOf_bytes, operandCount]

/-- An instruction encodes to the opcode and the operand bytes it was built from. -/
theorem encode_build (op b1 b2 : Byte) : encode (build op b1 b2) = op :: [b1, b2].take (operandCount op) := by
  rw [encode, Machine.build_opcode, build_form_bytes]

theorem encode_length (i : Instr) : (encode i).length = i.length := by
  rw [encode, List.length_cons, form_bytes_length, Instr.length, Instr.mode, Nat.add_comm]

/-! ### The bytes after the opcode (R58) -/

section
variable {op b1 b2 : Byte}

/-- A one-byte operand is the byte after the opcode. -/
theorem operand_eq_of_bytes {b : Byte} (h : (build op b1 b2).form.bytes = [b]) : b = b1 := by
  rw [build_form_bytes] at h
  cases hc : operandCount op with
  | zero => simp [hc] at h
  | succ n =>
    obtain ⟨hb, -⟩ : b1 = b ∧ _ := by simpa [hc] using h
    exact hb.symm

/-- A two-byte operand is the word of the two bytes after the opcode, low byte first. -/
theorem operand_eq_wordOf_of_bytes {w : Word} (h : (build op b1 b2).form.bytes = [loByte w, hiByte w]) :
    w = wordOf b2 b1 := by
  rw [build_form_bytes] at h
  rcases hc : operandCount op with _ | _ | n
  · simp [hc] at h
  · simp [hc] at h
  · obtain ⟨rfl, rfl⟩ : b1 = loByte w ∧ b2 = hiByte w := by simpa [hc] using h
    rw [wordOf_hiByte_loByte]

end

/-! ### The illegal rows (R61) -/

theorem eq_illegal_of_mnemonic {i : Instr} (h : i.mnemonic = .illegal) : i = .illegal i.opcode := by
  cases i with
  | illegal op => rfl
  | _ => simp [Instr.mnemonic] at h

theorem build_illegal {op : Byte} (b1 b2 : Byte) (h : isIllegalByte op = true) : build op b1 b2 = .illegal op := by
  obtain ⟨hm, -⟩ := Laws.Encoding.illegal op h
  have hi := eq_illegal_of_mnemonic ((build_mnemonic op b1 b2).trans hm)
  rwa [Machine.build_opcode] at hi

theorem build_eq_illegal_iff (op b1 b2 : Byte) : build op b1 b2 = .illegal op ↔ isIllegalByte op = true := by
  refine ⟨fun h => ?_, build_illegal b1 b2⟩
  have hw := Machine.build_wellFormed op b1 b2
  rwa [h] at hw

/-! ### The decoder and the encoder are inverse (R53) -/

/-- The decoder's row for an instruction's opcode gives the instruction back, from the bytes that make its operand. -/
theorem build_of_form {i : Instr} {b1 b2 : Byte} (hw : i.wellFormed = true) (hf : i.form = i.mode.formOf b1 b2) :
    build i.opcode b1 b2 = i := by
  cases i with
  | illegal op => exact build_illegal b1 b2 hw
  | _ =>
    cases hf
    simp only [Instr.opcode]
    rfl

theorem build_bytes {i : Instr} (hw : i.wellFormed = true) :
    build i.opcode (i.form.bytes.getD 0 0) (i.form.bytes.getD 1 0) = i :=
  build_of_form hw (form_eq_formOf i.form)

theorem operandCount_opcode {i : Instr} (hw : i.wellFormed = true) : i.form.bytes.length = operandCount i.opcode := by
  rw [form_bytes_length, operandCount, ← build_mode, build_bytes hw, Instr.mode]

/-- The decoder takes the opcode's operand bytes off the list and builds the instruction from them. -/
theorem decode_operands {op : Byte} {l : List Byte} (rest : List Byte) (h : l.length = operandCount op) :
    decode (op :: (l ++ rest)) = .ok (build op (l.getD 0 0) (l.getD 1 0), rest) := by
  match l, h, operandCount_le_two op with
  | [], h, _ => simp [decode, ← h]
  | [_], h, _ => simp [decode, ← h]
  | [_, _], h, _ => simp [decode, ← h]
  | _ :: _ :: _ :: _, h, hle => simp at h; omega

/-- Whatever the decoder answers, it built it so. -/
theorem operands_of_decode {bs rest : List Byte} {i : Instr} (h : decode bs = .ok (i, rest)) :
    ∃ op l, l.length = operandCount op ∧ bs = op :: (l ++ rest) ∧ i = build op (l.getD 0 0) (l.getD 1 0) := by
  unfold decode at h
  split at h
  · cases h
  · next op tail =>
    split at h
    · next hc => cases h; exact ⟨op, [], hc.symm, rfl, rfl⟩
    · next b1 _ hc => cases h; exact ⟨op, [b1], hc.symm, rfl, rfl⟩
    · next b1 b2 _ hc => cases h; exact ⟨op, [b1, b2], hc.symm, rfl, rfl⟩
    · cases h

theorem decode_encode {i : Instr} (rest : List Byte) (hw : i.wellFormed = true) :
    decode (encode i ++ rest) = .ok (i, rest) := by
  have h := decode_operands rest (operandCount_opcode hw)
  rwa [build_bytes hw] at h

/-! ### The assembler (R66 to R68) -/

theorem wellFormed_of_not_illegal {i : Instr} (h : i.mnemonic ≠ .illegal) : i.wellFormed = true := by
  cases i with
  | illegal op => exact absurd rfl h
  | _ => rfl

theorem isIllegalByte_opcode {i : Instr} (h : i.mnemonic ≠ .illegal) : isIllegalByte i.opcode = false := by
  refine Bool.eq_false_iff.mpr fun hi => h ?_
  rw [← build_bytes (wellFormed_of_not_illegal h), build_illegal _ _ hi, Instr.mnemonic]

/-- No two legal opcodes have one mnemonic and one mode. -/
theorem opcodeFor_build : ∀ op : Byte, isIllegalByte op = false →
    opcodeFor (build op 0 0).mnemonic (build op 0 0).mode = some op := by
  decide

theorem assembleOpcode_opcode {i : Instr} (h : i.mnemonic ≠ .illegal) :
    assembleOpcode i.mnemonic i.mode = .ok i.opcode := by
  have hl := isIllegalByte_opcode h
  have ho := opcodeFor_build i.opcode hl
  rw [← build_mnemonic, ← build_mode, build_bytes (wellFormed_of_not_illegal h)] at ho
  simp [assembleOpcode, ho, hl]

/-- A branch in range takes the displacement that reaches its target (R67). -/
theorem branchByte_in_range {source target : Word}
    (h : -128 ≤ (target.toNat : Int) - source.toNat - 2 ∧ (target.toNat : Int) - source.toNat - 2 ≤ 127) :
    branchByte source target = .ok (BitVec.ofInt 8 ((target.toNat : Int) - source.toNat - 2)) := if_pos h

theorem branchByte_out_of_range {source target : Word}
    (h : ¬(-128 ≤ (target.toNat : Int) - source.toNat - 2 ∧ (target.toNat : Int) - source.toNat - 2 ≤ 127)) :
    branchByte source target = .error .branchOutOfRange := if_neg h

theorem displacement_eq_bit7 : ∀ d : Byte, displacement d = if d.getLsbD 7 then (d.toNat : Int) - 256 else d.toNat := by
  decide

theorem displacement_ofInt {d : Int} (h : -128 ≤ d ∧ d ≤ 127) : displacement (BitVec.ofInt 8 d) = d := by
  rw [Machine.displacement_eq_toInt, BitVec.toInt_ofInt_eq_self] <;> omega

end Sys2Proof

namespace Sys2Proof.Proofs

open Sys2Proof Sys2Proof.Machine

/-- Settles O1: the opcode says how many operand bytes to take, and they are the encoding's. -/
theorem decodeOfEncodeIsTheInstruction : Obligations.DecodeOfEncodeIsTheInstruction :=
  fun _ rest hw => decode_encode rest hw

/-- Settles O2: the decoder builds from an opcode and its operand bytes, which are what the encoder writes. -/
theorem encodeOfDecodeIsTheBytes : Obligations.EncodeOfDecodeIsTheBytes := by
  intro bs i rest h
  obtain ⟨op, l, hl, rfl, rfl⟩ := operands_of_decode h
  refine ⟨build_wellFormed _ _ _, ?_⟩
  rw [encode_build, ← hl, take_getD_of_length_le_two (hl ▸ operandCount_le_two op), List.cons_append]

/-- Settles O4: an illegal byte builds its own illegal row, and what is built is well formed. -/
theorem illegalRowsAreTheListedBytes : Obligations.IllegalRowsAreTheListedBytes :=
  ⟨build_eq_illegal_iff, rfl⟩

/-- Settles O5: the operand bytes enter the descriptor through the form only. -/
theorem opcodeByteFixesTheDescriptor : Obligations.OpcodeByteFixesTheDescriptor := fun op b1 b2 c1 c2 =>
  ⟨build_opcode op b1 b2, (build_mnemonic op b1 b2).trans (build_mnemonic op c1 c2).symm,
    (build_mode op b1 b2).trans (build_mode op c1 c2).symm, build_length op b1 b2, encode_length _⟩

/-- Settles O7: in range the byte is the displacement reduced modulo 256. -/
theorem branchByteIsTheReducedDisplacement : Obligations.BranchByteIsTheReducedDisplacement := by
  intro source target d
  refine ⟨fun h => ⟨BitVec.ofInt 8 d, branchByte_in_range h, ?_, displacement_ofInt h⟩, branchByte_out_of_range⟩
  rw [BitVec.toNat_ofInt]
  split <;> omega

/-- Settles O6: no other opcode has the instruction's mnemonic and mode, so the assembler writes its encoding. -/
theorem assembledInstructionDecodesToItself : Obligations.AssembledInstructionDecodesToItself := by
  refine ⟨fun i hi => ⟨encode i, assemble_ok (assembleOpcode_opcode hi), ?_⟩, fun source target e he => ?_⟩
  · have h := decode_encode [] (wellFormed_of_not_illegal hi)
    rwa [List.append_nil] at h
  · by_cases h : -128 ≤ (target.toNat : Int) - source.toNat - 2 ∧ (target.toNat : Int) - source.toNat - 2 ≤ 127
    · rw [branchByte_in_range h] at he
      cases he
      rw [displacement_ofInt h]
      omega
    · rw [branchByte_out_of_range h] at he
      cases he

/-- Settles O8: the form holds the operand bytes themselves, and only a branch extends its byte. -/
theorem operandBytesFormTheOperand : Obligations.OperandBytesFormTheOperand := by
  intro op b1 b2 s
  have hone : ∀ b, ∀ f ∈ [Form.mem (.zp b), .mem (.zpx b), .mem (.zpy b), .mem (.izx b), .mem (.izy b)],
      f.bytes = [b] := by simp [Form.bytes, MemForm.bytes]
  have htwo : ∀ w, ∀ f ∈ [Form.mem (.abs w), .mem (.absx w), .mem (.absy w), .mem (.ind w)],
      f.bytes = [loByte w, hiByte w] := by simp [Form.bytes, MemForm.bytes]
  refine ⟨fun v h => ?_, fun b h => operand_eq_of_bytes (hone b _ h), zext16_toNat b1, fun w h => ?_, fun d h => ?_⟩
  · have hb : (build op b1 b2).form.bytes = [v] := by rw [h, Form.bytes]
    obtain rfl := operand_eq_of_bytes hb
    exact ⟨rfl, rfl⟩
  · rw [operand_eq_wordOf_of_bytes (htwo w _ h), wordOf_toNat]
  · have hb : (build op b1 b2).form.bytes = [d] := by rw [h, Form.bytes]
    obtain rfl := operand_eq_of_bytes hb
    refine ⟨rfl, s.pc + sext16 d, ?_, rfl⟩
    rw [branchTarget_toNat, displacement_eq_bit7]

/-- Settles O3: the decoder run on each word. -/
theorem wordsOfTheSpecDecode : Obligations.WordsOfTheSpecDecode :=
  ⟨rfl, rfl, rfl, rfl, rfl, rfl, rfl, rfl, rfl, rfl, rfl, rfl, rfl, rfl, rfl, rfl, rfl, rfl, rfl⟩

end Sys2Proof.Proofs
end

section
/-! PROOFS. The operand resolver (30_encoding.md R56, R57): the address of each addressing mode, and the accesses of the
fetch, of `Resolve` and of the execute part. -/

namespace Sys2Proof.Machine

open Sys2Proof

/-! ### Effective addresses (R56) -/

theorem zpIndexed_toNat (wrap : Bool) (b r : Byte) :
    (zpIndexed wrap b r).toNat = if wrap then (b.toNat + r.toNat) % 256 else b.toNat + r.toNat := by
  have := b.isLt
  have := r.isLt
  cases wrap
  · simp only [zpIndexed, Bool.false_eq_true, if_false, BitVec.toNat_add, zext16_toNat]
    omega
  · simp only [zpIndexed, if_true, zext16_toNat, BitVec.toNat_add]

theorem add_zext16_toNat (w : Word) (r : Byte) : (w + zext16 r).toNat = (w.toNat + r.toNat) % 65536 := by
  rw [BitVec.toNat_add, zext16_toNat]

theorem joined_toNat (hi lo : Byte) : (joined hi lo).toNat = hi.toNat * 256 + lo.toNat := by
  rw [← wordOf_eq_joined, wordOf_toNat]

theorem add_one_eq_ofNat (w : Word) : w + 1#16 = BitVec.ofNat 16 ((w.toNat + 1) % 65536) := by
  apply BitVec.eq_of_toNat_eq
  simp [BitVec.toNat_add]

section
variable {s : State} {lo hi : Byte}

/-- A zero-page pointer in cells that no device serves. -/
theorem readPointer_of_peek {p : Byte} {hiAt : Word} (hlo : s.mem.peek (zext16 p) = some lo)
    (hhi : s.mem.peek hiAt = some hi) : readPointer p hiAt s = (joined hi lo, s) := by
  simp only [readPointer, memRead_of_peek hlo, memRead_of_peek hhi, wordOf_eq_joined]

theorem effAddr_izy_of_peek {b : Byte} (hlo : s.mem.peek (zext16 b) = some lo)
    (hhi : s.mem.peek (if s.params.iySameByte then zext16 b else ptrHi s.params.zpPtrWrap b) = some hi) :
    effAddr (.izy b) s = (joined hi lo + zext16 s.y, s) := by
  simp only [effAddr, readPointer_of_peek hlo hhi]

end

/-! ### A machine whose every address is a device -/

section
variable {d : Nat} {s t : State}

theorem allDevice_of_mem_eq (h : AllDevice s d) (hm : t.mem = s.mem) : AllDevice t d := fun a => by
  rw [hm]
  exact h a

variable (h : AllDevice s d)
include h

theorem memRead_devLog (a : Word) : (memRead a s).2.devLog = .read d a (memRead a s).1 :: s.devLog := by
  rw [memRead_of_device (h a)]
  rfl

theorem memRead_accessed (a : Word) : (memRead a s).2.devLog.map accessed = (false, a) :: s.devLog.map accessed := by
  rw [memRead_devLog h]
  rfl

theorem memWrite_accessed (a : Word) (v : Byte) :
    (memWrite a v s).devLog.map accessed = (true, a) :: s.devLog.map accessed := by
  rw [memWrite_of_device v (h a)]
  rfl

/-- A word is read as two bytes, one after the other (20_memory.md R40). -/
theorem memRead_memRead_accessed (a b : Word) :
    (memRead b (memRead a s).2).2.devLog.map accessed = (false, b) :: (false, a) :: s.devLog.map accessed := by
  rw [memRead_accessed (allDevice_of_mem_eq h (memRead_mem a s)), memRead_accessed h]

end

/-! ### The accesses of the fetches (10_state.md R21, 70_reset_and_hazards.md R148 to R150) -/

/-- `t` is `s` after the bytes `bs` are fetched one by one from PC on, every one seen by device `d`. -/
structure Fetched (d : Nat) (s t : State) (bs : List Byte) : Prop where
  log : t.devLog = (bs.mapIdx fun k b => DevAccess.read d (s.pc + BitVec.ofNat 16 k) b).reverse ++ s.devLog
  pc : t.pc = s.pc + BitVec.ofNat 16 bs.length
  mem : t.mem = s.mem

theorem Fetched.fetch {d : Nat} {s t : State} {bs : List Byte} (h : Fetched d s t bs) (hd : AllDevice s d) :
    Fetched d s (fetch t).2 (bs ++ [(fetch t).1]) where
  log := by
    have hlog : (Machine.fetch t).2.devLog = .read d t.pc (Machine.fetch t).1 :: t.devLog :=
      memRead_devLog (allDevice_of_mem_eq hd h.mem) t.pc
    rw [hlog, h.log, h.pc]
    simp [List.mapIdx_append]
  pc := by
    rw [fetch_frame, h.pc, List.length_append, List.length_singleton, BitVec.ofNat_add, BitVec.add_assoc]
  mem := by rw [fetch_frame, h.mem]

theorem fetchOpcode_fetched {d : Nat} {s : State} (hd : AllDevice s d) :
    Fetched d s (fetchOpcode s).2 [(fetchOpcode s).1] := by
  have h0 : Fetched d s s.drawBus [] := ⟨rfl, (BitVec.add_zero s.pc).symm, rfl⟩
  obtain ⟨hlog, hpc, hmem⟩ := h0.fetch hd
  exact ⟨hlog, hpc, hmem⟩

/-- The fetches read the instruction's own bytes and no others, whatever its length. -/
theorem fetchInstr_fetched {d : Nat} {s : State} (hd : AllDevice s d) :
    Fetched d s (fetchInstr s).2 (encode (fetchInstr s).1) := by
  have h1 := fetchOpcode_fetched hd
  have hle := operandCount_le_two (fetchOpcode s).1
  unfold fetchInstr
  simp only
  split
  · next hc => simpa [encode_build, hc] using h1
  · next hc => simpa [encode_build, hc] using h1.fetch hd
  · next hc0 hc1 =>
    have hc : operandCount (fetchOpcode s).1 = 2 := Nat.le_antisymm hle ((Nat.two_le_iff _).mpr ⟨hc0, hc1⟩)
    simpa [encode_build, hc] using (h1.fetch hd).fetch hd

theorem step_of_running {s : State} (hh : s.halted = false) (hf : s.fault = none) :
    step s = exec (fetchInstr s).1 (fetchInstr s).2 := by
  simp [step, stopped, hh, hf]

/-! ### The accesses of `Resolve` (R57) -/

theorem effAddr_mem (m : MemForm) (s : State) : (effAddr m s).2.mem = s.mem := by rw [effAddr_frame]

/-- The last access of `Resolve` is the read of the effective address. -/
theorem resolve_accessed {d : Nat} {s : State} (h : AllDevice s d) (m : MemForm) :
    (resolve (.mem m) s).st.devLog.map accessed = (false, (effAddr m s).1) :: (effAddr m s).2.devLog.map accessed :=
  memRead_accessed (allDevice_of_mem_eq h (effAddr_mem m s)) _

/-! ### The accesses of the execute part (R57) -/

/-- The accumulator forms of the shifts. -/
theorem exec_of_acc {i : Instr} (h : i.mode = .acc) (s : State) :
    i.form = .acc ∧ ∃ k, exec i s = .next (shiftA k s) := by
  cases i with
  | aslAcc => exact ⟨rfl, asl, rfl⟩
  | lsrAcc => exact ⟨rfl, lsr, rfl⟩
  | rolAcc => exact ⟨rfl, rol, rfl⟩
  | rorAcc => exact ⟨rfl, ror, rfl⟩
  | _ => simp [Instr.mode, Instr.form, Form.mode, MemForm.mode] at h

/-- The mnemonics that write the operand they have read, where it is a memory operand. -/
def modifiers : List Mnemonic := [.inc, .dec, .asl, .lsr, .rol, .ror]

theorem form_of_operandWriter {i : Instr} (h : i.mnemonic ∈ stores ∨ i.mode ≠ .acc ∧ i.mnemonic ∈ modifiers) :
    ∃ m, i.form = .mem m := by
  cases i with
  | aslAcc | lsrAcc | rolAcc | rorAcc => simp [Instr.mnemonic, Instr.mode, Instr.form, Form.mode, stores] at h
  | _ => simp [Instr.mnemonic, Instr.form, stores, modifiers] at h ⊢

/-- The mnemonics that have no operand and touch no register but the flags. -/
def flagOnly : List Mnemonic := [.clc, .sec, .cli, .sei, .clv, .cld, .sed, .nop, .hlt, .illegal]

theorem form_of_flagOnly {i : Instr} (hm : i.mnemonic ∈ flagOnly) : i.form = .imp := by
  cases i with
  | clc | sec | cli | sei | clv | cld | sed | nop | hlt | illegal => rfl
  | _ => simp [Instr.mnemonic, flagOnly] at hm

/-- The mnemonics that use what `Resolve` gave, or a register, and access nothing more. -/
def registerOnly : List Mnemonic :=
  [.lda, .ldx, .ldy, .ora, .and, .eor, .adc, .sbc, .cmp, .cpx, .cpy, .bit, .jmp, .bpl, .bmi, .bvc, .bvs, .bcc, .bcs, .bne, .beq,
   .tax, .tay, .txa, .tya, .tsx, .txs, .inx, .dex, .iny, .dey]

/-- The mnemonics that access nothing after `Resolve`. -/
def silent : List Mnemonic := registerOnly ++ flagOnly

section
variable {m : Mnemonic} {f : Form} {a : Word} {s t : State} (h : execute m f a s = .next t)
include h

/-- One write at the effective address is all that the devices see of a store or of a read-modify-write. -/
theorem execute_devLog_of_operandWriter (hm : m ∈ stores ∨ f.mode ≠ .acc ∧ m ∈ modifiers)
    (hp : s.params.addr0SelectsAcc = false) :
    ∃ v, t.devLog = (memWrite (operand f s).ea v (operand f s).st).devLog := by
  cases m with
  | sta | stx | sty | inc | dec => cases h; exact ⟨_, rfl⟩
  | asl | lsr | rol | ror =>
    have hd : f.mode ≠ .acc := (hm.resolve_left (by decide)).1
    simp only [execute, shiftOperand, hd, hp, if_false, Bool.false_eq_true, false_and] at h
    cases h
    exact ⟨_, rfl⟩
  | _ => simp [stores, modifiers] at hm

theorem execute_devLog_of_silent (hm : m ∈ silent) (hf : m ∈ flagOnly → f = .imp) :
    t.devLog = (operand f s).st.devLog := by
  cases m with
  | lda | ldx | ldy | ora | and | eor | adc | sbc | tax | tay | txa | tya | tsx | txs | inx | dex | iny | dey =>
    cases h
    exact load_devLog _ _ _
  | cmp | cpx | cpy | bit | jmp => cases h; rfl
  | bpl | bmi | bvc | bvs | bcc | bcs | bne | beq => cases h; split <;> rfl
  | clc | sec | cli | sei | clv | cld | sed | nop | hlt | illegal =>
    obtain rfl := hf (by decide)
    cases h
    rfl
  | _ => simp [silent, registerOnly, flagOnly] at hm

end

/-! ### The instructions that keep memory (R57, 20_memory.md R39) -/

/-- The mnemonics that may write memory. -/
def memoryWriters : List Mnemonic := [.sta, .stx, .sty, .inc, .dec, .asl, .lsr, .rol, .ror, .pha, .php, .jsr, .brk]

theorem Effect.mem_eq {d : Mode} {a : Word} {s t : State} {m : Mnemonic} (h : Effect d a s m t)
    (hm : m ∉ memoryWriters) : t.mem = s.mem := by
  cases h with
  | store _ _ _ hw | replace _ _ _ _ hw | shiftCell _ _ _ _ _ hw | push _ _ _ _ hw =>
    exact vacuous_of_subset hw (by decide) hm
  | overflow _ _ _ _ hw => exact vacuous_of_subset (mem_overflow_raisers hw) (by decide) hm
  | call | trap => exact absurd (by decide) hm
  | _ => simp

end Sys2Proof.Machine

namespace Sys2Proof.Proofs

open Sys2Proof Sys2Proof.Machine

/-- Settles O24: none of these modes reads a pointer, and each sum is taken at the width R56 gives it. -/
theorem directModesComputeTheirAddress : Obligations.DirectModesComputeTheirAddress := fun s b w =>
  ⟨⟨zext16_toNat b, rfl⟩, ⟨zpIndexed_toNat _ b s.x, rfl⟩, ⟨zpIndexed_toNat _ b s.y, rfl⟩, ⟨rfl, rfl⟩,
    ⟨add_zext16_toNat w s.x, rfl⟩, ⟨add_zext16_toNat w s.y, rfl⟩⟩

/-- Settles O25: the two pointer reads answer the two bytes, or one byte twice. -/
theorem pointerModesComputeTheirAddress : Obligations.PointerModesComputeTheirAddress := by
  intro s lo hi
  refine ⟨fun w hlo hhi => ?_, fun b p hp hlo hhi => ?_, fun b hsame hlo => ?_, fun b hsame hlo hhi => ?_⟩
  · rw [← add_one_eq_ofNat] at hhi
    rw [effAddr, read16_of_peek hlo hhi, wordOf_eq_joined]
  · obtain rfl : p = b + s.x := BitVec.eq_of_toNat_eq (by simpa [BitVec.toNat_add] using hp)
    rw [← zext16_eq_ofNat] at hlo
    rw [← ptrHi_eq_ofNat] at hhi
    exact readPointer_of_peek hlo hhi
  · rw [← zext16_eq_ofNat] at hlo
    rw [effAddr_izy_of_peek hlo (by rwa [if_pos hsame]), add_zext16_toNat, joined_toNat]
    exact ⟨by omega, rfl⟩
  · rw [← zext16_eq_ofNat] at hlo
    rw [← ptrHi_eq_ofNat] at hhi
    rw [effAddr_izy_of_peek hlo (by rwa [if_neg (by simp [hsame])]), add_zext16_toNat, joined_toNat]
    exact ⟨rfl, rfl⟩

/-- Settles O26: `Resolve` of a memory form is one read after the pointer reads. -/
theorem resolveReadsTheAddressOnce : Obligations.ResolveReadsTheAddressOnce := fun s =>
  ⟨fun m => ⟨rfl, rfl, rfl, afterReads_resolve (.mem m) s⟩, fun _ => ⟨⟨rfl, rfl, rfl⟩, ⟨rfl, rfl, rfl⟩⟩,
    ⟨rfl, rfl, rfl⟩, ⟨rfl, rfl, rfl⟩⟩

/-- Settles O27: the fetches by `fetchInstr_fetched`; `Resolve` by its pointer reads and its last read. -/
theorem resolveMakesItsAccessesInOrder : Obligations.ResolveMakesItsAccessesInOrder := by
  intro s d hd f seen before ea hiAt
  have hf := fetchInstr_fetched hd
  have hhi : ∀ p, ptrHi s.params.zpPtrWrap p = hiAt p := ptrHi_eq_ofNat _
  have hlast : ∀ m, seen m = (false, ea m) :: (effAddr m s).2.devLog.map accessed := resolve_accessed hd
  have hpointer : ∀ m a b, (effAddr m s).2 = (memRead b (memRead a s).2).2 →
      seen m = (false, ea m) :: (false, b) :: (false, a) :: before := fun m a b h =>
    (hlast m).trans (congrArg _ (h ▸ memRead_memRead_accessed hd a b))
  refine ⟨⟨hf.log, fetchInstr_wellFormed s, (fetchInstr_opcode s).symm, encode_length f.1 ▸ hf.pc, hf.mem,
    step_of_running⟩, fun b w => ?_⟩
  rw [← hhi, ← hhi]
  exact ⟨hlast _, hlast _, hlast _, hlast _, hlast _, hlast _, hpointer _ _ _ rfl, hpointer _ _ _ rfl, hpointer _ _ _ rfl⟩

/-- Settles O28: the execute part by mnemonic, on the operand that `Resolve` gave. -/
theorem executeMakesOnlyItsAccesses : Obligations.ExecuteMakesOnlyItsAccesses := by
  intro i s t d hd hp h before
  refine ⟨fun hw => ?_, fun hq => ?_⟩
  · obtain ⟨m, hform⟩ := form_of_operandWriter hw
    rw [exec_eq_execute] at h
    obtain ⟨v, hv⟩ := execute_devLog_of_operandWriter h hw hp
    rw [hform] at hv
    simp only [before, hform]
    exact ⟨_, rfl, hv ▸ memWrite_accessed (allDevice_of_mem_eq hd (resolveMem_mem m s)) _ v⟩
  · by_cases hacc : i.mode = .acc
    · obtain ⟨hform, k, hk⟩ := exec_of_acc hacc s
      obtain rfl : shiftA k s = t := by simpa [hk] using h
      simp only [before, hform]
      rfl
    · have hm : i.mnemonic ∈ silent := hq.resolve_left hacc
      rw [exec_eq_execute] at h
      exact congrArg _ (execute_devLog_of_silent h hm form_of_flagOnly)

/-- Settles O53: a memory cell changes only by an effect of one of the listed mnemonics, and in no accumulator form. -/
theorem nonStoringInstructionsKeepMemory : Obligations.NonStoringInstructionsKeepMemory := by
  rintro i s t h (hacc | hm) a
  · obtain ⟨-, k, hk⟩ := exec_of_acc hacc s
    obtain rfl : shiftA k s = t := by simpa [hk] using h
    rfl
  · rw [(effect_of_exec h).mem_eq hm]

end Sys2Proof.Proofs
end

section
/-! PROOFS. Loads and stores (40_load_store.md): the opcode rows of a mnemonic, the register that takes the operand value,
and the byte written at the effective address. -/

namespace Sys2Proof.Machine

open Sys2Proof

/-! ### The rows of a mnemonic (30_encoding.md R60) -/

/-- A mnemonic's rows are what its opcode bytes build, since every well-formed instruction is built from its own opcode. -/
theorem encodedAs_of_build {m : Mnemonic} {l : List (Mode × Byte)} (hm : m ≠ .illegal)
    (hrows : ∀ op : Byte, (build op 0 0).mnemonic = m → ((build op 0 0).mode, op) ∈ l)
    (hl : ∀ p ∈ l, (build p.2 0 0).mnemonic = m ∧ (build p.2 0 0).mode = p.1) : EncodedAs m l := by
  refine ⟨fun i hi => ?_, fun p hp => ?_⟩
  · have h := hrows i.opcode
    rw [← build_mnemonic, ← build_mode, build_bytes (wellFormed_of_not_illegal (hi ▸ hm))] at h
    exact h hi
  · obtain ⟨hmn, hmd⟩ := hl p hp
    exact ⟨build p.2 0 0, hmn, Prod.ext hmd (build_opcode p.2 0 0)⟩

/-! ### The operand value and the registers after `Resolve` (30_encoding.md R56) -/

/-- The mnemonics that use the operand value. -/
def valueUsers : List Mnemonic :=
  [.lda, .ldx, .ldy, .ora, .and, .eor, .adc, .sbc, .cmp, .cpx, .cpy, .bit] ++ modifiers ++ branches

theorem form_ne_imp_of_valueUser {i : Instr} (hm : i.mnemonic ∈ valueUsers) : i.form ≠ .imp := by
  cases i with
  | tax | tay | txa | tya | tsx | txs | pha | pla | php | plp | inx | dex | iny | dey | rts | brk | rti | clc | sec | cli | sei
  | clv | cld | sed | nop | hlt | illegal => simp [Instr.mnemonic, valueUsers, modifiers, branches] at hm
  | _ => exact nofun

/-- Only the implied form has no value. -/
theorem resolve_v_of_ne_imp {f : Form} (hf : f ≠ .imp) (s : State) : (resolve f s).v = some (operand f s).v := by
  cases f with
  | imp => exact absurd rfl hf
  | _ => rfl

theorem operand_reg (f : Form) (s : State) (r : Reg) : (operand f s).st.reg r = s.reg r := by
  obtain ⟨l, n, h⟩ := operand_touched f s
  rw [h]
  cases r <;> rfl

/-! ### Loads (R69 to R71) -/

/-- `Load(r, v)` after `Resolve` (10_state.md R29): the register, N and Z, and what the devices saw. -/
theorem load_operand (r : Reg) (v : Byte) (f : Form) (s : State) :
    load r v (operand f s).st =
      { s.setReg r v with
        flags := nzOf s.flags v, devLog := (resolve f s).st.devLog, draws := (resolve f s).st.draws } := by
  have h : (operand f s).st = { s with devLog := (resolve f s).st.devLog, draws := (resolve f s).st.draws } :=
    afterReads_resolve f s
  rw [h, load, setNZ_eq_nzOf]
  cases r <;> rfl

/-- The next state of an instruction whose execute part is `Load(r, v)`. -/
theorem exec_of_load {i : Instr} {s : State} {r : Reg} {v : Byte}
    (h : execute i.mnemonic i.form (opcodeAddr i s) s = .next (load r v (operand i.form s).st)) :
    exec i s = .next { s.setReg r v with
      flags := nzOf s.flags v, devLog := (resolve i.form s).st.devLog, draws := (resolve i.form s).st.draws } := by
  rw [exec_eq_execute, h, load_operand]

/-! ### Stores (R72 to R74) -/

/-- The next state of an instruction whose execute part writes register `r` at the effective address. -/
theorem exists_wrote_of_store {i : Instr} {s : State} {r : Reg} (hw : s.mem.wf) (hm : i.mnemonic ∈ stores)
    (h : execute i.mnemonic i.form (opcodeAddr i s) s =
      .next (memWrite (operand i.form s).ea ((operand i.form s).st.reg r) (operand i.form s).st)) :
    ∃ ea t, (resolve i.form s).ea = some ea ∧ exec i s = .next t ∧ Wrote (resolve i.form s).st t ea (s.reg r) := by
  obtain ⟨m, hf⟩ := form_of_operandWriter (.inl hm)
  rw [← exec_eq_execute, operand_reg, hf] at h
  rw [hf]
  exact ⟨_, _, rfl, h, wrote_afterResolve m (s.reg r) s hw⟩

end Sys2Proof.Machine

namespace Sys2Proof.Proofs

open Sys2Proof Sys2Proof.Machine

/-- Settles O29: the execute part of each is `Load` of the operand value, which every load's form has. -/
theorem loadsTakeTheOperandValue : Obligations.LoadsTakeTheOperandValue := by
  refine ⟨encodedAs_of_build (by decide) (by decide) (by decide), encodedAs_of_build (by decide) (by decide) (by decide),
    encodedAs_of_build (by decide) (by decide) (by decide), fun i s => ?_⟩
  have hv : i.mnemonic ∈ valueUsers → (resolve i.form s).v = some (operand i.form s).v := fun hm =>
    resolve_v_of_ne_imp (form_ne_imp_of_valueUser hm) s
  refine ⟨fun hm => ?_, fun hm => ?_, fun hm => ?_⟩
  · exact ⟨_, hv (by rw [hm]; decide), exec_of_load (r := .a) (by rw [hm]; rfl)⟩
  · exact ⟨_, hv (by rw [hm]; decide), exec_of_load (r := .x) (by rw [hm]; rfl)⟩
  · exact ⟨_, hv (by rw [hm]; decide), exec_of_load (r := .y) (by rw [hm]; rfl)⟩

/-- Settles O30: the execute part of each is one write, of the register as it was before `Resolve`. -/
theorem storesWriteTheRegister : Obligations.StoresWriteTheRegister := by
  refine ⟨encodedAs_of_build (by decide) (by decide) (by decide), encodedAs_of_build (by decide) (by decide) (by decide),
    encodedAs_of_build (by decide) (by decide) (by decide), fun i s hw => ?_⟩
  refine ⟨afterReads_resolve i.form s, fun hm => ?_, fun hm => ?_, fun hm => ?_⟩
  · exact exists_wrote_of_store (r := .a) hw (by rw [hm]; decide) (by rw [hm]; rfl)
  · exact exists_wrote_of_store (r := .x) hw (by rw [hm]; decide) (by rw [hm]; rfl)
  · exact exists_wrote_of_store (r := .y) hw (by rw [hm]; decide) (by rw [hm]; rfl)

end Sys2Proof.Proofs
end

section
/-! PROOFS. Transfers and stack instructions (41_transfer_stack.md): an instruction that is one push or one pull, in each of
its two cases. -/

namespace Sys2Proof.Machine

open Sys2Proof Sys2Proof.Proofs

/-- A fault raised in `i` is recorded with IR and the address PC has left by the instruction's length (60_exceptions.md R132). -/
theorem raiseFault_opcodeAddr (k : FaultKind) (i : Instr) (s : State) :
    raiseFault k (opcodeAddr i s) s = { s with fault := recorded k s i.length } := rfl

/-! ### Pushes (10_state.md R23) -/

section
variable {i : Instr} {s : State} {v : Byte} (h : exec i s = finish (push (opcodeAddr i s) v s))
include h

theorem exec_push_of_room (hw : s.mem.wf) (hsp : s.sp ≠ 0x00#8) :
    ∃ u, Wrote s u (stackCell s.sp) v ∧ exec i s = .next { u with sp := s.sp - 1#8 } := by
  obtain ⟨u, hu, hpush⟩ := (pushWritesThenMovesDown (opcodeAddr i s) v s hw).2 hsp
  exact ⟨u, hu, by rw [h, hpush, finish]⟩

theorem exec_push_of_full (hsp : s.sp = 0x00#8) :
    exec i s = .next { s with fault := recorded .stackOverflow s i.length } := by
  have hpush : push (opcodeAddr i s) v s = .error (raiseFault .stackOverflow (opcodeAddr i s) s) := if_pos hsp
  rw [h, hpush, raiseFault_opcodeAddr, finish]

end

/-! ### Pulls (10_state.md R24) -/

/-- `s` after its SP has moved up and the stack cell there has been read. -/
def State.pulled (s : State) : State :=
  { s with
    sp := s.sp + 1#8, devLog := (memRead (stackCell (s.sp + 1#8)) s).2.devLog
    draws := (memRead (stackCell (s.sp + 1#8)) s).2.draws }

/-- A pop reads what `s` itself reads at the cell: SP takes no part in a read. -/
theorem pop_of_room {s : State} (a : Word) (hsp : s.sp ≠ 0xFF#8) :
    pop a s = .ok ((memRead (stackCell (s.sp + 1#8)) s).1, s.pulled) := by
  rw [(popReadsAndUndoesPush.1 a s).2 hsp]
  exact congrArg Except.ok (memRead_congr _ s _ rfl rfl rfl)

theorem pullA_eq_map (a : Word) (s : State) : pullA a s = (pop a s).map fun r => load .a r.1 r.2 := by
  unfold pullA
  cases pop a s <;> rfl

theorem pullFlags_eq_map (a : Word) (s : State) :
    pullFlags a s = (pop a s).map fun r => r.2.setFlags (Flags.unpack r.1) := by
  unfold pullFlags
  cases pop a s <;> rfl

section
variable {i : Instr} {s : State} {f : Byte × State → State} (h : exec i s = finish ((pop (opcodeAddr i s) s).map f))
include h

theorem exec_pull_of_room (hsp : s.sp ≠ 0xFF#8) :
    exec i s = .next (f ((memRead (stackCell (s.sp + 1#8)) s).1, s.pulled)) := by
  rw [h, pop_of_room _ hsp]
  rfl

theorem exec_pull_of_empty (hsp : s.sp = 0xFF#8) :
    exec i s = .next { s with fault := recorded .stackUnderflow s i.length } := by
  have hpop : pop (opcodeAddr i s) s = .error (raiseFault .stackUnderflow (opcodeAddr i s) s) := if_pos hsp
  rw [h, hpop, raiseFault_opcodeAddr]
  rfl

end

end Sys2Proof.Machine

namespace Sys2Proof.Proofs

open Sys2Proof Sys2Proof.Machine

/-- Settles O32: each is one push, of A or of the packed flags. -/
theorem pushInstructionsPush : Obligations.PushInstructionsPush := by
  refine ⟨encodedAs_of_build (by decide) (by decide) (by decide), encodedAs_of_build (by decide) (by decide) (by decide),
    fun s hw => ?_⟩
  have hpha : exec .pha s = finish (push (opcodeAddr .pha s) s.a s) := rfl
  have hphp : exec .php s = finish (push (opcodeAddr .php s) s.flags.pack s) := rfl
  exact ⟨fun hsp => ⟨exec_push_of_room hpha hw hsp, exec_push_of_room hphp hw hsp⟩,
    fun hsp => ⟨exec_push_of_full hpha hsp, exec_push_of_full hphp hsp⟩⟩

/-- Settles O33: each is one pull, followed by `Load` of A or by unpacking the flags. -/
theorem pullInstructionsPull : Obligations.PullInstructionsPull := by
  refine ⟨encodedAs_of_build (by decide) (by decide) (by decide), encodedAs_of_build (by decide) (by decide) (by decide),
    fun s => ?_⟩
  have hpla : exec .pla s = _ := congrArg finish (pullA_eq_map (opcodeAddr .pla s) s)
  have hplp : exec .plp s = _ := congrArg finish (pullFlags_eq_map (opcodeAddr .plp s) s)
  refine ⟨fun hsp => ⟨?_, exec_pull_of_room hplp hsp⟩,
    fun hsp => ⟨exec_pull_of_empty hpla hsp, exec_pull_of_empty hplp hsp⟩⟩
  rw [exec_pull_of_room hpla hsp, (loadSetsOneRegisterAndNZ _ _).1]
  rfl

/-- Settles O31: each is `Load` of its source register, and its form, implied, reads nothing. -/
theorem transfersLoadTheSource : Obligations.TransfersLoadTheSource := by
  refine ⟨encodedAs_of_build (by decide) (by decide) (by decide), encodedAs_of_build (by decide) (by decide) (by decide),
    encodedAs_of_build (by decide) (by decide) (by decide), encodedAs_of_build (by decide) (by decide) (by decide),
    encodedAs_of_build (by decide) (by decide) (by decide), encodedAs_of_build (by decide) (by decide) (by decide),
    fun s => ⟨?_, ?_, ?_, ?_, ?_, ?_⟩⟩
  · exact exec_of_load (r := .x) (v := s.a) rfl
  · exact exec_of_load (r := .y) (v := s.a) rfl
  · exact exec_of_load (r := .a) (v := s.x) rfl
  · exact exec_of_load (r := .a) (v := s.y) rfl
  · exact exec_of_load (r := .x) (v := s.sp) rfl
  · exact exec_of_load (r := .sp) (v := s.x) rfl

end Sys2Proof.Proofs
end

section
/-! PROOFS. The ALU (42_alu.md): what an operation computes from A and the operand value, and the flags it sets. -/

namespace Sys2Proof.Machine

open Sys2Proof

/-! ### What an ALU operation reads after `Resolve` (30_encoding.md R56) -/

theorem resolve_v_of_valueUser {i : Instr} (hm : i.mnemonic ∈ valueUsers) (s : State) :
    (resolve i.form s).v = some (operand i.form s).v :=
  resolve_v_of_ne_imp (form_ne_imp_of_valueUser hm) s

theorem operand_a (f : Form) (s : State) : (operand f s).st.a = s.a := operand_reg f s .a

theorem operand_params (f : Form) (s : State) : (operand f s).st.params = s.params := by
  obtain ⟨l, n, h⟩ := operand_touched f s
  rw [h, touched_params]

/-! ### Sums and differences modulo 256 (R90, R91) -/

theorem bitAt_zero_toNat (c : Bool) : (bitAt c 0).toNat = c.toNat := by
  cases c <;> rfl

theorem add_carry_toNat (a v : Byte) (c : Bool) :
    (a + v + bitAt c 0).toNat = (a.toNat + v.toNat + c.toNat) % 256 := by
  simp only [BitVec.toNat_add, bitAt_zero_toNat]
  omega

theorem sub_borrow_toNat (a v : Byte) (c : Bool) :
    ((a - v - bitAt c 0).toNat : Int) = ((a.toNat : Int) - v.toNat - c.toNat) % 256 := by
  have := a.isLt
  have := v.isLt
  have := c.toNat_le
  simp only [BitVec.toNat_sub, bitAt_zero_toNat]
  omega

/-- The carry that goes into a sum: C, under its parameter. -/
theorem and_toNat_eq_ite (p c : Bool) : (p && c).toNat = if p then c.toNat else 0 := by
  cases p <;> rfl

theorem not_toNat (c : Bool) : (!c).toNat = 1 - c.toNat := by
  cases c <;> rfl

/-! ### Operations that set flags only (R86, R95) -/

theorem setFlags_operand (g : Flags) (f : Form) (s : State) :
    (operand f s).st.setFlags g =
      { s with flags := g, devLog := (resolve f s).st.devLog, draws := (resolve f s).st.draws } :=
  congrArg (State.setFlags · g) (afterReads_resolve f s)

theorem compareReg_operand (r : Reg) (v : Byte) (f : Form) (s : State) :
    compareReg r v (operand f s).st =
      { s with
        flags := s.flags.compare s.params.cmpNFromBit7 (s.reg r) v
        devLog := (resolve f s).st.devLog, draws := (resolve f s).st.draws } := by
  rw [compareReg, setFlags_operand, operand_flags, operand_params, operand_reg]

theorem bitA_operand (v : Byte) (f : Form) (s : State) :
    bitA v (operand f s).st =
      { s with
        flags := s.flags.bitTest s.a v
        devLog := (resolve f s).st.devLog, draws := (resolve f s).st.draws } := by
  rw [bitA, setFlags_operand, operand_flags, operand_a]

end Sys2Proof.Machine

namespace Sys2Proof.Proofs

open Sys2Proof Sys2Proof.Machine

/-- Settles O34: each is `Load` of A combined with the operand value. -/
theorem logicOperationsLoadA : Obligations.LogicOperationsLoadA := by
  refine ⟨encodedAs_of_build (by decide) (by decide) (by decide), encodedAs_of_build (by decide) (by decide) (by decide),
    encodedAs_of_build (by decide) (by decide) (by decide), fun i s => ⟨fun hm => ?_, fun hm => ?_, fun hm => ?_⟩⟩
  · exact ⟨_, s.a ||| (operand i.form s).v, resolve_v_of_valueUser (by rw [hm]; decide) s, fun _ => BitVec.getLsbD_or,
      exec_of_load (r := .a) (by rw [hm, ← operand_a i.form s]; rfl)⟩
  · exact ⟨_, s.a &&& (operand i.form s).v, resolve_v_of_valueUser (by rw [hm]; decide) s, fun _ => BitVec.getLsbD_and,
      exec_of_load (r := .a) (by rw [hm, ← operand_a i.form s]; rfl)⟩
  · exact ⟨_, s.a ^^^ (operand i.form s).v, resolve_v_of_valueUser (by rw [hm]; decide) s, fun _ => BitVec.getLsbD_xor,
      exec_of_load (r := .a) (by rw [hm, ← operand_a i.form s]; rfl)⟩

/-- Settles O35: each is `Load` of a sum or difference modulo 256, the carry being a bit that its parameter lets in. -/
theorem addAndSubtractWrapWithoutCarry : Obligations.AddAndSubtractWrapWithoutCarry := by
  refine ⟨encodedAs_of_build (by decide) (by decide) (by decide), encodedAs_of_build (by decide) (by decide) (by decide),
    fun i s => ⟨fun hm => ?_, fun hm => ?_⟩⟩
  · refine ⟨_, s.a + (operand i.form s).v + bitAt (s.params.adcCarryIn && s.flags.c) 0,
      resolve_v_of_valueUser (by rw [hm]; decide) s, ?_, exec_of_load (r := .a) ?_⟩
    · rw [add_carry_toNat, and_toNat_eq_ite]
    · rw [hm, ← operand_a i.form s, ← operand_params i.form s, ← operand_flags i.form s]
      rfl
  · refine ⟨_, s.a - (operand i.form s).v - bitAt (s.params.sbcBorrowIn && !s.flags.c) 0,
      resolve_v_of_valueUser (by rw [hm]; decide) s, ?_, exec_of_load (r := .a) ?_⟩
    · rw [sub_borrow_toNat, and_toNat_eq_ite, not_toNat]
    · rw [hm, ← operand_a i.form s, ← operand_params i.form s, ← operand_flags i.form s]
      rfl

/-- Settles O36: each is the compare of its register with the operand value, whose flags are those of the exact difference. -/
theorem comparesUseTheExactDifference : Obligations.ComparesUseTheExactDifference := by
  refine ⟨encodedAs_of_build (by decide) (by decide) (by decide), encodedAs_of_build (by decide) (by decide) (by decide),
    encodedAs_of_build (by decide) (by decide) (by decide), fun i s q hq => ?_⟩
  have hcompare : ∃ r, q = s.reg r ∧ i.mnemonic ∈ compares ∧ execute i.mnemonic i.form (opcodeAddr i s) s =
      .next (compareReg r (operand i.form s).v (operand i.form s).st) := by
    rcases hq with ⟨hm, hq⟩ | ⟨hm, hq⟩ | ⟨hm, hq⟩ <;> rw [hm]
    · exact ⟨.a, hq, by decide, rfl⟩
    · exact ⟨.x, hq, by decide, rfl⟩
    · exact ⟨.y, hq, by decide, rfl⟩
  obtain ⟨r, rfl, hm, hexec⟩ := hcompare
  have hvalue : compares ⊆ valueUsers := by decide
  refine ⟨_, resolve_v_of_valueUser (hvalue hm) s, ?_⟩
  rw [exec_eq_execute, hexec, compareReg_operand, compare_eq]

/-- Settles O37: the execute part is the bit test of A and the operand value. -/
theorem bitTestSetsNVZ : Obligations.BitTestSetsNVZ := by
  refine ⟨encodedAs_of_build (by decide) (by decide) (by decide), fun i s hm => ?_⟩
  refine ⟨_, resolve_v_of_valueUser (by rw [hm]; decide) s, ?_⟩
  rw [exec_eq_execute, hm]
  exact congrArg Host.Outcome.next (bitA_operand _ i.form s)

end Sys2Proof.Proofs
end

section
/-! PROOFS. Flags that no operation looks at: an instruction run with D or I changed gives the same outcome but for that flag
(42_alu.md R85, 10_state.md R30, 60_exceptions.md R135). -/

namespace Sys2Proof.Machine

open Sys2Proof

/-! ### Changing the flags of a state -/

/-- `s` with its flags changed by `g`. -/
def State.withFlags (g : Flags → Flags) (s : State) : State := s.setFlags (g s.flags)

/-- `x` with the flags of the state that a raise left changed by `g`, and the result of an operation that went on by `h`. -/
def MayRaise.mapStates {α : Type} (x : MayRaise α) (g : Flags → Flags) (h : α → α) : MayRaise α :=
  (x.mapError (State.withFlags g)).map h

theorem finish_of_eq_mapStates {g : Flags → Flags} {x y : MayRaise State} (h : x = y.mapStates g (State.withFlags g)) :
    finish x = mapFlags g (finish y) := by
  rw [h]
  cases y <;> rfl

/-- What follows an operation that may raise commutes with a change of flags if it does so on every result. -/
theorem map_mapStates {α β : Type} {g : Flags → Flags} {h : α → α} {h' : β → β} {k : α → β} (x : MayRaise α)
    (hk : ∀ r, k (h r) = h' (k r)) : (x.mapStates g h).map k = MayRaise.mapStates (x.map k) g h' := by
  cases x with
  | error e => rfl
  | ok r => exact congrArg Except.ok (hk r)

/-! ### Operations that take no flag -/

section
variable (g : Flags → Flags) (s : State)

theorem memRead_withFlags (a : Word) : memRead a (s.withFlags g) = ((memRead a s).1, (memRead a s).2.withFlags g) := by
  rw [State.withFlags, memRead_setFlags, State.withFlags, memRead_flags]

theorem memWrite_withFlags (a : Word) (v : Byte) : memWrite a v (s.withFlags g) = (memWrite a v s).withFlags g := by
  rw [State.withFlags, memWrite_setFlags, State.withFlags, memWrite_flags]

theorem read16_withFlags (a : Word) : read16 a (s.withFlags g) = ((read16 a s).1, (read16 a s).2.withFlags g) := by
  simp only [read16, memRead_withFlags]

theorem operand_withFlags (f : Form) :
    operand f (s.withFlags g) = { operand f s with st := (operand f s).st.withFlags g } := by
  cases f with
  | mem m =>
    have h := resolveMem_setFlags m (g s.flags) s
    simp only [operand, resolve, State.withFlags, resolveMem_flags, h]
  | _ => rfl

theorem branch_withFlags (cond : Bool) (v : Byte) : branch cond v (s.withFlags g) = mapFlags g (branch cond v s) := by
  cases cond <;> rfl

variable (a : Word)

theorem push_withFlags (v : Byte) :
    push a v (s.withFlags g) = (push a v s).mapStates g (State.withFlags g) := by
  rcases push_cases a v s with ⟨hsp, h⟩ | ⟨hsp, h⟩ <;> rw [h]
  · exact if_pos hsp
  · refine (if_neg hsp).trans ?_
    rw [memWrite_withFlags]
    rfl

theorem pop_withFlags :
    pop a (s.withFlags g) = (pop a s).mapStates g (Prod.map id (State.withFlags g)) := by
  rcases pop_cases a s with ⟨hsp, h⟩ | ⟨hsp, h⟩ <;> rw [h]
  · exact if_pos hsp
  · refine (if_neg hsp).trans ?_
    exact congrArg Except.ok (memRead_withFlags g (s.setReg .sp (s.sp + 1#8)) _)

theorem pushWord_withFlags (w : Word) :
    pushWord a w (s.withFlags g) = (pushWord a w s).mapStates g (State.withFlags g) := by
  unfold pushWord
  rw [push_withFlags]
  cases push a (hiByte w) s with
  | error e => rfl
  | ok s1 => exact push_withFlags g s1 a _

theorem popWord_withFlags :
    popWord a (s.withFlags g) = (popWord a s).mapStates g (Prod.map id (State.withFlags g)) := by
  unfold popWord
  rw [pop_withFlags]
  cases pop a s with
  | error e => rfl
  | ok lo =>
    have h := pop_withFlags g lo.2 a
    simp only [MayRaise.mapStates, Except.mapError, Except.map, Prod.map] at h ⊢
    rw [h]
    cases pop a lo.2 <;> rfl

theorem returnFromSub_withFlags :
    returnFromSub a (s.withFlags g) = (returnFromSub a s).mapStates g (State.withFlags g) := by
  unfold returnFromSub
  rw [popWord_withFlags]
  cases popWord a s <;> rfl

/-- JSR's pushes and its jump (44_control.md R117). -/
theorem pushWord_setPc_withFlags (w v : Word) :
    (pushWord a w (s.withFlags g)).map (State.setPc · v) =
      MayRaise.mapStates ((pushWord a w s).map (State.setPc · v)) g (State.withFlags g) := by
  rw [pushWord_withFlags]
  exact map_mapStates _ fun _ => rfl

end

/-! ### D and I overridden -/

/-- `f` with D and I replaced by the values given for them. -/
def Flags.overrideDI (d i : Option Bool) (f : Flags) : Flags := { f with d := d.getD f.d, i := i.getD f.i }

section
variable (d i : Option Bool) (s : State)

theorem load_overrideDI (r : Reg) (v : Byte) :
    load r v (s.withFlags (.overrideDI d i)) = (load r v s).withFlags (.overrideDI d i) := by
  cases r <;> rfl

theorem pullA_overrideDI (a : Word) :
    pullA a (s.withFlags (.overrideDI d i)) =
      (pullA a s).mapStates (.overrideDI d i) (State.withFlags (.overrideDI d i)) := by
  rw [pullA_eq_map, pop_withFlags, pullA_eq_map]
  exact map_mapStates _ fun r => load_overrideDI d i r.2 .a r.1

theorem compareReg_overrideDI (r : Reg) (v : Byte) :
    compareReg r v (s.withFlags (.overrideDI d i)) = (compareReg r v s).withFlags (.overrideDI d i) := by
  cases r <;> rfl

theorem replaceCell_overrideDI (o : MemOperand) (r : Byte) :
    replaceCell { o with st := o.st.withFlags (.overrideDI d i) } r = mapFlags (.overrideDI d i) (replaceCell o r) := by
  unfold replaceCell
  rw [memWrite_withFlags]
  rfl

theorem shiftCell_overrideDI (k : Shift) (o : MemOperand) :
    shiftCell k { o with st := o.st.withFlags (.overrideDI d i) } = (shiftCell k o).withFlags (.overrideDI d i) := by
  unfold shiftCell
  simp only [memWrite_withFlags]
  rfl

theorem shiftOperand_overrideDI (k : Shift) (md : Mode) (o : MemOperand) :
    shiftOperand k md (s.withFlags (.overrideDI d i)) { o with st := o.st.withFlags (.overrideDI d i) } =
      mapFlags (.overrideDI d i) (shiftOperand k md s o) := by
  unfold shiftOperand
  rw [shiftCell_overrideDI]
  have hp : (s.withFlags (.overrideDI d i)).params = s.params := rfl
  rw [hp]
  split
  · rfl
  · split <;> rfl

/-- What BRK and RTI write to I is kept where I is not overridden. -/
theorem takeBreak_overrideD (a : Word) :
    takeBreak a (s.withFlags (.overrideDI d none)) =
      (takeBreak a s).mapStates (.overrideDI d none) (State.withFlags (.overrideDI d none)) := by
  unfold takeBreak
  have hpc : (s.withFlags (.overrideDI d none)).pc = s.pc := rfl
  rw [hpc, pushWord_withFlags]
  cases pushWord a s.pc s with
  | error e => rfl
  | ok s1 =>
    simp only [MayRaise.mapStates, Except.mapError, Except.map, read16_withFlags]
    rfl

theorem returnFromBreak_overrideD (a : Word) :
    returnFromBreak a (s.withFlags (.overrideDI d none)) =
      (returnFromBreak a s).mapStates (.overrideDI d none) (State.withFlags (.overrideDI d none)) :=
  returnFromSub_withFlags (.overrideDI d none) (s.setFlags { s.flags with b := false, i := false }) a

end

/-- A mnemonic other than PHP and PLP that writes neither of the overridden flags has the same outcome but for these flags. -/
theorem execute_overrideDI {m : Mnemonic} (d i : Option Bool) (f : Form) (a : Word) (s : State)
    (hpack : m ∉ [.php, .plp]) (hd : m ∈ [.cld, .sed] → d = none) (hi : m ∈ [.cli, .sei, .brk, .rti] → i = none) :
    execute m f a (s.withFlags (.overrideDI d i)) = mapFlags (.overrideDI d i) (execute m f a s) := by
  simp only [execute, operand_withFlags]
  cases m with
  | lda | ldx | ldy | ora | and | eor | adc | sbc | tax | tay | txa | tya | tsx | txs | inx | dex | iny | dey =>
    exact congrArg Host.Outcome.next (load_overrideDI d i _ _ _)
  | sta | stx | sty => exact congrArg Host.Outcome.next (memWrite_withFlags _ _ _ _)
  | inc | dec => exact replaceCell_overrideDI d i _ _
  | asl | lsr | rol | ror => exact shiftOperand_overrideDI d i s _ _ _
  | cmp | cpx | cpy => exact congrArg Host.Outcome.next (compareReg_overrideDI d i _ _ _)
  | bit | jmp => rfl
  | bpl | bmi | bvc | bvs | bcc | bcs | bne | beq => exact branch_withFlags _ _ _ _
  | jsr => exact finish_of_eq_mapStates (pushWord_setPc_withFlags _ _ a _ _)
  | pha => exact finish_of_eq_mapStates (push_withFlags _ s a s.a)
  | pla => exact finish_of_eq_mapStates (pullA_overrideDI d i s a)
  | rts => exact finish_of_eq_mapStates (returnFromSub_withFlags _ s a)
  | brk =>
    obtain rfl := hi (by decide)
    exact finish_of_eq_mapStates (takeBreak_overrideD d s a)
  | rti =>
    obtain rfl := hi (by decide)
    exact finish_of_eq_mapStates (returnFromBreak_overrideD d s a)
  | cli | sei =>
    obtain rfl := hi (by decide)
    rfl
  | cld | sed =>
    obtain rfl := hd (by decide)
    rfl
  | clc | sec | clv | nop | hlt | illegal => rfl
  | php | plp => simp at hpack

theorem exec_overrideDI {j : Instr} (d i : Option Bool) (s : State) (hpack : j.mnemonic ∉ [.php, .plp])
    (hd : j.mnemonic ∈ [.cld, .sed] → d = none) (hi : j.mnemonic ∈ [.cli, .sei, .brk, .rti] → i = none) :
    exec j (s.withFlags (.overrideDI d i)) = mapFlags (.overrideDI d i) (exec j s) := by
  rw [exec_eq_execute, exec_eq_execute]
  exact execute_overrideDI d i j.form (opcodeAddr j s) s hpack hd hi

end Sys2Proof.Machine

namespace Sys2Proof.Proofs

open Sys2Proof Sys2Proof.Machine

/-- Settles O56: D alone is overridden, and the excluded mnemonics are those that pack or write it. -/
theorem decimalFlagIsInert : Obligations.DecimalFlagIsInert := by
  intro i s d hm
  simp only [List.mem_cons, List.not_mem_nil, or_false, not_or] at hm
  obtain ⟨hphp, hplp, hcld, hsed⟩ := hm
  exact exec_overrideDI (some d) none s (by simp [hphp, hplp]) (by simp [hcld, hsed]) (fun _ => rfl)

end Sys2Proof.Proofs
end

section
/-! PROOFS. Increments, shifts and rotates (43_incdec_shift.md): the results as numbers, the write of a read-modify-write, and
where a shift finds its operand. -/

namespace Sys2Proof.Machine

open Sys2Proof

/-! ### Results as numbers (R97 to R106) -/

theorem add_one_toNat (v : Byte) : (v + 1#8).toNat = (v.toNat + 1) % 256 := BitVec.toNat_add v 1#8

theorem sub_one_toNat (v : Byte) : (v - 1#8).toNat = (v.toNat + 255) % 256 := by
  rw [BitVec.toNat_sub, Nat.add_comm]
  rfl

/-- `k` moves the bits of its operand as R103 to R106 say of mnemonic `m`. -/
structure Shift.Moves (k : Shift) (m : Mnemonic) : Prop where
  result : ∀ x c, (k.result x c).toNat = shiftedNumber m x.toNat c.toNat
  carry : ∀ x, k.carry x = shiftedCarry m x.toNat

theorem asl_moves : asl.Moves .asl := ⟨by decide, by decide⟩
theorem lsr_moves : lsr.Moves .lsr := ⟨by decide, by decide⟩
theorem rol_moves : rol.Moves .rol := ⟨by decide, by decide⟩
theorem ror_moves : ror.Moves .ror := ⟨by decide, by decide⟩

/-- Each shift mnemonic is the operation that moves its bits, in either form. -/
theorem exists_shift_of_exec {i : Instr} (hm : i.mnemonic ∈ shifts) (s : State) :
    ∃ k : Shift, k.Moves i.mnemonic ∧ exec i s = shiftOperand k i.mode s (operand i.form s) := by
  rw [exec_eq_execute]
  generalize i.mnemonic = m at hm ⊢
  cases m with
  | asl => exact ⟨asl, asl_moves, rfl⟩
  | lsr => exact ⟨lsr, lsr_moves, rfl⟩
  | rol => exact ⟨rol, rol_moves, rfl⟩
  | ror => exact ⟨ror, ror_moves, rfl⟩
  | _ => simp [shifts] at hm

/-! ### The write of a read-modify-write (R96 to R98) -/

/-- Only the shifts have an accumulator form (30_encoding.md R60). -/
theorem mem_shifts_of_acc {i : Instr} (h : i.mode = .acc) : i.mnemonic ∈ shifts := by
  cases i with
  | aslAcc | lsrAcc | rolAcc | rorAcc => decide
  | _ => simp [Instr.mode, Instr.form, Form.mode, MemForm.mode] at h

section
variable {i : Instr} {s : State}

/-- A modifier outside the accumulator form has an address and a value, and writes any result `w` there. -/
theorem wrote_of_modifier (hw : s.mem.wf) (hd : i.mode ≠ .acc) (hm : i.mnemonic ∈ modifiers) (w : Byte) :
    (resolve i.form s).ea = some (operand i.form s).ea ∧ (resolve i.form s).v = some (operand i.form s).v ∧
      Wrote (resolve i.form s).st (memWrite (operand i.form s).ea w (operand i.form s).st) (operand i.form s).ea w := by
  obtain ⟨m, hf⟩ := form_of_operandWriter (.inr ⟨hd, hm⟩)
  rw [hf]
  exact ⟨rfl, rfl, wrote_afterResolve m w s hw⟩

/-- The next state of INC and DEC, whose execute part replaces the cell by a result `w`. -/
theorem exists_wrote_of_replaceCell {w : Byte} (hw : s.mem.wf) (hm : i.mnemonic ∈ [.inc, .dec])
    (h : execute i.mnemonic i.form (opcodeAddr i s) s = replaceCell (operand i.form s) w) :
    ∃ ea u, (resolve i.form s).ea = some ea ∧ (resolve i.form s).v = some (operand i.form s).v ∧
      Wrote (resolve i.form s).st u ea w ∧ exec i s = .next { u with flags := nzOf s.flags w } := by
  have hno : ∀ m ∈ [Mnemonic.inc, .dec], m ∉ shifts ∧ m ∈ modifiers := by decide
  obtain ⟨hshift, hmod⟩ := hno _ hm
  obtain ⟨hea, hv, hwrote⟩ := wrote_of_modifier hw (mt mem_shifts_of_acc hshift) hmod w
  refine ⟨_, _, hea, hv, hwrote, ?_⟩
  rw [exec_eq_execute, h, replaceCell, operand_flags, setNZ_eq_nzOf]
  rfl

end

/-! ### Where a shift finds its operand (R96) -/

section
variable (k : Shift) {d : Mode} {s : State} {o : MemOperand}

theorem shiftOperand_of_selectsA (h : d = .acc ∨ s.params.addr0SelectsAcc = true ∧ o.ea = 0x0000#16) :
    shiftOperand k d s o = .next (shiftA k o.st) := by
  unfold shiftOperand
  by_cases hd : d = .acc
  · exact if_pos hd
  · rw [if_neg hd, if_pos (h.resolve_left hd)]

theorem shiftOperand_of_cell (hd : d ≠ .acc) (h : ¬(s.params.addr0SelectsAcc = true ∧ o.ea = 0x0000#16)) :
    shiftOperand k d s o = .next (shiftCell k o) := by
  rw [shiftOperand, if_neg hd, if_neg h]

end

theorem shifted_eq_nzOf (f : Flags) (c : Bool) (r : Byte) : f.shifted c r = nzOf { f with c := c } r :=
  setNZ_eq_nzOf _ r

/-- A shift of A after `Resolve`: A, C, N and Z, and what the devices saw. -/
theorem shiftA_operand (k : Shift) (f : Form) (s : State) :
    shiftA k (operand f s).st =
      { s with
        a := k.result s.a s.flags.c
        flags := nzOf { s.flags with c := k.carry s.a } (k.result s.a s.flags.c)
        devLog := (resolve f s).st.devLog, draws := (resolve f s).st.draws } := by
  have h : (operand f s).st = { s with devLog := (resolve f s).st.devLog, draws := (resolve f s).st.draws } :=
    afterReads_resolve f s
  rw [h, shiftA, shifted_eq_nzOf]
  rfl

/-- A shift of the cell after `Resolve`: its one write, then C, N and Z. -/
theorem shiftCell_operand (k : Shift) (f : Form) (s : State) :
    shiftCell k (operand f s) =
      { memWrite (operand f s).ea (k.result (operand f s).v s.flags.c) (operand f s).st with
        flags := nzOf { s.flags with c := k.carry (operand f s).v } (k.result (operand f s).v s.flags.c) } := by
  rw [shiftCell, operand_flags, shifted_eq_nzOf]
  rfl

end Sys2Proof.Machine

namespace Sys2Proof.Proofs

open Sys2Proof Sys2Proof.Machine

/-- Settles O38: the execute part of each replaces the cell by the operand value plus or minus one. -/
theorem incrementsModifyMemory : Obligations.IncrementsModifyMemory := by
  refine ⟨encodedAs_of_build (by decide) (by decide) (by decide), encodedAs_of_build (by decide) (by decide) (by decide),
    fun i s hw => ⟨afterReads_resolve i.form s, fun hm => ?_, fun hm => ?_⟩⟩
  · obtain ⟨ea, u, hea, hv, hwrote, hexec⟩ := exists_wrote_of_replaceCell hw (by rw [hm]; decide) (by rw [hm]; rfl)
    exact ⟨ea, _, _, u, hea, hv, add_one_toNat _, hwrote, hexec⟩
  · obtain ⟨ea, u, hea, hv, hwrote, hexec⟩ := exists_wrote_of_replaceCell hw (by rw [hm]; decide) (by rw [hm]; rfl)
    exact ⟨ea, _, _, u, hea, hv, sub_one_toNat _, hwrote, hexec⟩

/-- Settles O39: each is `Load` of its register plus or minus one. -/
theorem indexRegistersCountAndWrap : Obligations.IndexRegistersCountAndWrap := by
  refine ⟨encodedAs_of_build (by decide) (by decide) (by decide), encodedAs_of_build (by decide) (by decide) (by decide),
    encodedAs_of_build (by decide) (by decide) (by decide), encodedAs_of_build (by decide) (by decide) (by decide),
    fun s => ⟨?_, ?_, ?_, ?_⟩⟩
  · exact ⟨_, add_one_toNat s.x, exec_of_load (r := .x) (v := s.x + 1#8) rfl⟩
  · exact ⟨_, sub_one_toNat s.x, exec_of_load (r := .x) (v := s.x - 1#8) rfl⟩
  · exact ⟨_, add_one_toNat s.y, exec_of_load (r := .y) (v := s.y + 1#8) rfl⟩
  · exact ⟨_, sub_one_toNat s.y, exec_of_load (r := .y) (v := s.y - 1#8) rfl⟩

/-- Settles O40: each is one operation, on A where the form or the address selects it, else on the cell. -/
theorem shiftsMoveTheirBits : Obligations.ShiftsMoveTheirBits := by
  refine ⟨encodedAs_of_build (by decide) (by decide) (by decide), encodedAs_of_build (by decide) (by decide) (by decide),
    encodedAs_of_build (by decide) (by decide) (by decide), encodedAs_of_build (by decide) (by decide) (by decide),
    fun i s hw hm => ?_⟩
  obtain ⟨k, hk, hexec⟩ := exists_shift_of_exec hm s
  refine ⟨afterReads_resolve i.form s, fun hsel => ?_, fun hd hsel => ?_⟩
  · have hea : (resolve i.form s).ea = some 0x0000#16 → (operand i.form s).ea = 0x0000#16 := fun h =>
      congrArg (Option.getD · 0) h
    refine ⟨_, hk.result s.a s.flags.c, ?_⟩
    rw [hexec, shiftOperand_of_selectsA k (hsel.imp_right (And.imp_right hea)), shiftA_operand, hk.carry]
  · have hmod : shifts ⊆ modifiers := by decide
    obtain ⟨hea, hv, hwrote⟩ := wrote_of_modifier hw hd (hmod hm) (k.result (operand i.form s).v s.flags.c)
    rw [hea, Option.some_inj] at hsel
    refine ⟨_, _, _, _, hea, hv, hk.result _ _, hwrote, ?_⟩
    rw [hexec, shiftOperand_of_cell k hd hsel, shiftCell_operand, hk.carry]

end Sys2Proof.Proofs
end

section
/-! PROOFS. Control transfer (44_control.md): branches and jumps, the instructions that push PC and those that pull it, in each
case of SP, and a return undoing its call. -/

namespace Sys2Proof.Machine

open Sys2Proof Sys2Proof.Proofs

/-! ### Branches and jumps (R107 to R116) -/

/-- A branch has its displacement byte for a form, and tests what its mnemonic says. -/
theorem exec_of_branch {i : Instr} (hm : i.mnemonic ∈ branches) (s : State) :
    ∃ d, i.form = .rel d ∧ exec i s = branch (branchHolds i.mnemonic s.flags) d s := by
  cases i with
  | bpl d | bmi d | bvc d | bvs d | bcc d | bcs d | bne d | beq d => exact ⟨d, rfl, rfl⟩
  | _ => simp [Instr.mnemonic, branches] at hm

theorem exec_of_jmp {i : Instr} (hm : i.mnemonic = .jmp) (s : State) : ∃ m, i.form = .mem m ∧ exec i s = jump m s := by
  cases i with
  | jmpAbs w => exact ⟨.abs w, rfl, rfl⟩
  | jmpInd w => exact ⟨.ind w, rfl, rfl⟩
  | _ => simp [Instr.mnemonic] at hm

/-! ### What reads and a write keep -/

theorem AfterReads.refl (s : State) : AfterReads s s := rfl

section
variable {s u : State} (h : AfterReads s u)
include h
theorem AfterReads.mem : u.mem = s.mem := by rw [h]
theorem AfterReads.sp : u.sp = s.sp := by rw [h]
theorem AfterReads.ir : u.ir = s.ir := by rw [h]
theorem AfterReads.flags : u.flags = s.flags := by rw [h]
end

theorem Wrote.flags {s t : State} {ea : Word} {v : Byte} (h : Wrote s t ea v) : t.flags = s.flags := by rw [h.frame]

/-! ### Pushing PC (R117, R119, 10_state.md R25) -/

/-- `s` after the byte `v` has been written to the stack cell of SP and SP has moved down. -/
def State.pushed (s : State) (v : Byte) : State := { memWrite (stackCell s.sp) v s with sp := s.sp - 1#8 }

theorem push_of_room {s : State} (a : Word) (v : Byte) (hsp : s.sp ≠ 0x00#8) : push a v s = .ok (s.pushed v) := by
  rw [State.pushed, ← stackAddr_eq_stackCell]
  exact if_neg hsp

theorem push_of_full {s : State} (a : Word) (v : Byte) (hsp : s.sp = 0x00#8) :
    push a v s = .error (raiseFault .stackOverflow a s) := if_pos hsp

theorem pushWord_of_room {s : State} (a w : Word) (hsp : s.sp ≠ 0x00#8) :
    pushWord a w s = push a (loByte w) (s.pushed (hiByte w)) := by
  rw [pushWord, push_of_room a _ hsp]

theorem pushWord_of_full {s : State} (a w : Word) (hsp : s.sp = 0x00#8) :
    pushWord a w s = .error (raiseFault .stackOverflow a s) := by
  rw [pushWord, push_of_full a _ hsp]

/-- What follows BRK's pushes (R119): PC from the vector, then B and I. -/
def enterTrap (s : State) : State :=
  ((read16 Config.irqVector s).2.setPc (read16 Config.irqVector s).1).setFlags
    { (read16 Config.irqVector s).2.flags with b := true, i := true }

theorem takeBreak_eq_map (a : Word) (s : State) : takeBreak a s = (pushWord a s.pc s).map enterTrap := by
  unfold takeBreak
  cases pushWord a s.pc s <;> rfl

theorem enterTrap_eq (s : State) :
    enterTrap s = { s with
      pc := (read16 Config.irqVector s).1, flags := { s.flags with b := true, i := true }
      devLog := (read16 Config.irqVector s).2.devLog, draws := (read16 Config.irqVector s).2.draws } := by
  unfold enterTrap
  rw [read16_frame]
  rfl

/-! An instruction that pushes PC after some reads, and goes on by `f`. -/

section
variable {i : Instr} {s u : State} {f : State → State} (hu : AfterReads s u)
  (h : exec i s = finish ((pushWord (opcodeAddr i s) s.pc u).map f))
include hu h

theorem exec_call_of_room (hw : s.mem.wf) (hsp : 2 ≤ s.sp.toNat) :
    ∃ u1 u2, Wrote u u1 (stackCell s.sp) (hiByte s.pc) ∧
      Wrote { u1 with sp := s.sp - 1#8 } u2 (stackCell (s.sp - 1#8)) (loByte s.pc) ∧
      exec i s = .next (f { u2 with sp := s.sp - 2#8 }) := by
  have hwu : u.mem.wf := hu.mem ▸ hw
  rw [← hu.sp] at hsp ⊢
  have h0 : u.sp ≠ 0x00#8 := by bv_omega
  have h1 : u.sp - 1#8 ≠ 0x00#8 := by bv_omega
  have h2 : u.sp - 1#8 - 1#8 = u.sp - 2#8 := by bv_omega
  refine ⟨_, _, wrote_memWrite _ _ u hwu, wrote_memWrite _ _ _ (memWrite_wf _ _ u hwu), ?_⟩
  rw [h, pushWord_of_room _ _ h0, push_of_room _ _ h1, ← h2]
  rfl

theorem exec_call_of_one (hw : s.mem.wf) (hsp : s.sp.toNat = 1) :
    ∃ u1, Wrote u u1 (stackCell s.sp) (hiByte s.pc) ∧
      exec i s = .next { u1 with sp := 0x00#8, fault := recorded .stackOverflow s i.length } := by
  rw [← hu.sp] at hsp ⊢
  have h0 : u.sp ≠ 0x00#8 := by bv_omega
  have h1 : u.sp - 1#8 = 0x00#8 := by bv_omega
  refine ⟨_, wrote_memWrite _ _ u (hu.mem ▸ hw), ?_⟩
  rw [h, pushWord_of_room _ _ h0, push_of_full _ _ h1, raiseFault, State.pushed, memWrite_ir, hu.ir, h1]
  rfl

theorem exec_call_of_full (hsp : s.sp.toNat = 0) :
    exec i s = .next { u with fault := recorded .stackOverflow s i.length } := by
  have h0 : u.sp = 0x00#8 := hu.sp.trans (by bv_omega)
  rw [h, pushWord_of_full _ _ h0, raiseFault, hu.ir]
  rfl

end

/-! ### Pulling PC (R118, R120, 10_state.md R25) -/

/-- What the first of two pulls reads, with the state after it. -/
def pullLo (s : State) : Byte × State := memRead (stackCell (s.sp + 1#8)) { s with sp := s.sp + 1#8 }

/-- What the second of two pulls reads, with the state after it. -/
def pullHi (s : State) : Byte × State := memRead (stackCell (s.sp + 2#8)) { (pullLo s).2 with sp := s.sp + 2#8 }

theorem pullLo_frame (s : State) :
    (pullLo s).2 = { s with sp := s.sp + 1#8, devLog := (pullLo s).2.devLog, draws := (pullLo s).2.draws } :=
  memRead_frame _ _

theorem pullHi_frame (s : State) :
    (pullHi s).2 = { s with sp := s.sp + 2#8, devLog := (pullHi s).2.devLog, draws := (pullHi s).2.draws } := by
  rw [pullHi, memRead_frame, pullLo_frame]

theorem pop_eq_pullLo {s : State} (a : Word) (hsp : s.sp ≠ 0xFF#8) : pop a s = .ok (pullLo s) :=
  (popReadsAndUndoesPush.1 a s).2 hsp

theorem pop_pullLo {s : State} (a : Word) (hsp : s.sp ≠ 0xFE#8) : pop a (pullLo s).2 = .ok (pullHi s) := by
  have hlo : (pullLo s).2.sp = s.sp + 1#8 := memRead_sp _ _
  have hhi : (pullLo s).2.sp + 1#8 = s.sp + 2#8 := by bv_omega
  rw [(popReadsAndUndoesPush.1 a _).2 (by bv_omega), hhi, pullHi]

theorem pop_of_empty {s : State} (a : Word) (hsp : s.sp = 0xFF#8) : pop a s = .error (raiseFault .stackUnderflow a s) :=
  if_pos hsp

theorem exec_rts_eq_map (s : State) :
    exec .rts s = finish ((popWord (opcodeAddr .rts s) s).map fun r => r.2.setPc r.1) := by
  have h : exec .rts s = finish (returnFromSub (opcodeAddr .rts s) s) := rfl
  rw [h, returnFromSub]
  cases popWord (opcodeAddr .rts s) s <;> rfl

theorem exec_rts_of_room {s : State} (hsp : s.sp.toNat ≤ 0xFD) :
    exec .rts s = .next ((pullHi s).2.setPc (joined (pullHi s).1 (pullLo s).1)) := by
  rw [exec_rts_eq_map, popWord, pop_eq_pullLo _ (by bv_omega)]
  simp only
  rw [pop_pullLo _ (by bv_omega), ← wordOf_eq_joined]
  rfl

theorem exec_rts_of_one {s : State} (hsp : s.sp.toNat = 0xFE) :
    exec .rts s = .next (raiseFault .stackUnderflow (opcodeAddr .rts s) (pullLo s).2) := by
  have hlo : (pullLo s).2.sp = s.sp + 1#8 := memRead_sp _ _
  rw [exec_rts_eq_map, popWord, pop_eq_pullLo _ (by bv_omega)]
  simp only
  rw [pop_of_empty _ (by bv_omega)]
  rfl

theorem exec_rts_of_empty {s : State} (hsp : s.sp.toNat = 0xFF) :
    exec .rts s = .next { s with fault := recorded .stackUnderflow s 1 } := by
  rw [exec_rts_eq_map, popWord, pop_of_empty _ (by bv_omega)]
  rfl

/-- RTI is RTS with B and I clear, whatever RTS comes to (60_exceptions.md R137). -/
theorem exec_rti_eq_mapFlags (s : State) :
    exec .rti s = mapFlags (fun f => { f with b := false, i := false }) (exec .rts s) :=
  finish_of_eq_mapStates (x := returnFromBreak (opcodeAddr .rti s) s)
    (returnFromSub_withFlags (fun f => { f with b := false, i := false }) s (opcodeAddr .rts s))

/-! ### A return after its call -/

theorem writtenCell_congr {m m' : Memory} (h : m'.bindings = m.bindings) (a : Word) : m'.writtenCell a = m.writtenCell a := by
  simp only [Memory.writtenCell, Memory.region, h]

/-- Two addresses of different writable cells keep the bytes written there one after the other. -/
theorem Memory.StoredAt.peek_both {m m₁ m₂ : Memory} {a b : Word} {v w : Byte} (h₁ : m.StoredAt m₁ a v)
    (h₂ : m₁.StoredAt m₂ b w) (ha : m.writtenCell a ≠ none) (hb : m.writtenCell b ≠ none)
    (hab : m.writtenCell a ≠ m.writtenCell b) : m₂.peek a = some v ∧ m₂.peek b = some w := by
  have hcell := writtenCell_congr h₁.map
  have ha₁ : m₁.backingCell a = m₁.writtenCell a := backingCell_eq_writtenCell (hcell a ▸ ha)
  have hb₁ : m₁.writtenCell b ≠ none := hcell b ▸ hb
  have hab₁ : m₁.backingCell a ≠ m₁.writtenCell b := by rwa [ha₁, hcell, hcell]
  refine ⟨?_, h₂.stored b hb₁ (backingCell_eq_writtenCell hb₁)⟩
  rw [h₂.kept a (.inr hab₁)]
  exact h₁.stored a ha (backingCell_eq_writtenCell ha)

/-- RTS with the two bytes of `w` on the stack, high byte above. -/
theorem exec_rts_of_peek {t : State} {w : Word} (hsp : t.sp.toNat ≤ 0xFD)
    (hlo : t.mem.peek (stackCell (t.sp + 1#8)) = some (loByte w))
    (hhi : t.mem.peek (stackCell (t.sp + 2#8)) = some (hiByte w)) :
    exec .rts t = .next { t with pc := w, sp := t.sp + 2#8 } := by
  have hpl : pullLo t = (loByte w, { t with sp := t.sp + 1#8 }) := memRead_of_peek hlo
  have hph : pullHi t = (hiByte w, { t with sp := t.sp + 2#8 }) := by
    rw [pullHi, hpl]
    exact memRead_of_peek hhi
  rw [exec_rts_of_room hsp, hpl, hph, ← wordOf_eq_joined, wordOf_hiByte_loByte]
  rfl

/-- RTS where a call's pushes have left memory and SP, the cells being two writable ones. -/
theorem exec_rts_after_pushes {s u u1 u2 t : State} {w : Word} (hu : AfterReads s u) (hcells : StackPairWritable s)
    (hsp : 2 ≤ s.sp.toNat) (h1 : Wrote u u1 (stackCell s.sp) (hiByte w))
    (h2 : Wrote { u1 with sp := s.sp - 1#8 } u2 (stackCell (s.sp - 1#8)) (loByte w))
    (hmem : t.mem = u2.mem) (htsp : t.sp = s.sp - 2#8) : exec .rts t = .next { t with pc := w, sp := s.sp } := by
  rw [StackPairWritable, ← hu.mem] at hcells
  obtain ⟨hhi, hlo, hne⟩ := hcells
  obtain ⟨hphi, hplo⟩ := h1.memory.peek_both h2.memory hhi hlo hne
  have hs1 : t.sp + 1#8 = s.sp - 1#8 := by bv_omega
  have hs2 : t.sp + 2#8 = s.sp := by bv_omega
  rw [exec_rts_of_peek (by bv_omega) (by rw [hmem, hs1, hplo]) (by rw [hmem, hs2, hphi]), hs2]

end Sys2Proof.Machine

namespace Sys2Proof.Proofs

open Sys2Proof Sys2Proof.Machine

/-- Settles O41: each adds its displacement to PC or does nothing, by the flag its mnemonic names. -/
theorem branchesAddTheirDisplacement : Obligations.BranchesAddTheirDisplacement := by
  refine ⟨encodedAs_of_build (by decide) (by decide) (by decide), encodedAs_of_build (by decide) (by decide) (by decide),
    encodedAs_of_build (by decide) (by decide) (by decide), encodedAs_of_build (by decide) (by decide) (by decide),
    encodedAs_of_build (by decide) (by decide) (by decide), encodedAs_of_build (by decide) (by decide) (by decide),
    encodedAs_of_build (by decide) (by decide) (by decide), encodedAs_of_build (by decide) (by decide) (by decide),
    fun i s hm => ?_⟩
  obtain ⟨d, hf, hexec⟩ := exec_of_branch hm s
  exact ⟨d, s.pc + sext16 d, hf, branchTarget_toNat s.pc d, hexec⟩

/-- Settles O42: `Resolve` of either form gives the address and has changed only the devices' view. -/
theorem jumpSetsPc : Obligations.JumpSetsPc := by
  refine ⟨encodedAs_of_build (by decide) (by decide) (by decide), fun i s hm => ?_⟩
  obtain ⟨m, hf, hexec⟩ := exec_of_jmp hm s
  rw [hf, hexec, jump, resolveMem_frame]
  exact ⟨_, rfl, rfl⟩

/-- Settles O43: JSR pushes PC after `Resolve`, which has kept all that the pushes use, and jumps. -/
theorem jumpToSubroutinePushesPc : Obligations.JumpToSubroutinePushesPc := by
  refine ⟨encodedAs_of_build (by decide) (by decide) (by decide), fun w s hw => ?_⟩
  have hu : AfterReads s (resolve (.mem (.abs w)) s).st := afterReads_resolve _ s
  have h : exec (.jsrAbs w) s =
      finish ((pushWord (opcodeAddr (.jsrAbs w) s) s.pc (resolve (.mem (.abs w)) s).st).map (State.setPc · w)) := by
    rw [exec_eq_execute, ← resolveMem_pc (.abs w) s]
    rfl
  exact ⟨hu, exec_call_of_room hu h hw, exec_call_of_one hu h hw, exec_call_of_full hu h⟩

/-- Settles O44: the two pulls, each with its own underflow. -/
theorem returnFromSubroutinePullsPc : Obligations.ReturnFromSubroutinePullsPc := by
  refine ⟨encodedAs_of_build (by decide) (by decide) (by decide), fun s => ?_⟩
  refine ⟨fun hsp => ?_, fun hsp => ?_, exec_rts_of_empty⟩
  · rw [exec_rts_of_room hsp, pullHi_frame]
    rfl
  · have hff : s.sp + 1#8 = 0xFF#8 := by bv_omega
    rw [exec_rts_of_one hsp, pullLo_frame, ← hff]
    rfl

/-- Settles O45: BRK pushes PC as JSR does, and then takes the vector and sets B and I. -/
theorem breakTakesTheTrap : Obligations.BreakTakesTheTrap := by
  refine ⟨encodedAs_of_build (by decide) (by decide) (by decide), fun s hw => ?_⟩
  have hu := AfterReads.refl s
  have h : exec .brk s = _ := congrArg finish (takeBreak_eq_map (opcodeAddr .brk s) s)
  refine ⟨fun hsp => ?_, exec_call_of_one hu h hw, exec_call_of_full hu h⟩
  obtain ⟨u1, u2, h1, h2, hexec⟩ := exec_call_of_room hu h hw hsp
  refine ⟨u1, u2, h1, h2, ?_⟩
  have hflags : u2.flags = s.flags := h2.flags.trans h1.flags
  rw [hexec, enterTrap_eq, ← hflags]
  rfl

/-- Settles O46: in each case RTI is what RTS comes to, with B and I clear. -/
theorem returnFromBreakClearsBAndI : Obligations.ReturnFromBreakClearsBAndI := by
  refine ⟨encodedAs_of_build (by decide) (by decide) (by decide), fun s => ?_⟩
  obtain ⟨hroom, hone, hempty⟩ := returnFromSubroutinePullsPc.2 s
  rw [exec_rti_eq_mapFlags]
  exact ⟨fun hsp => by rw [hroom hsp]; rfl, fun hsp => by rw [hone hsp]; rfl, fun hsp => by rw [hempty hsp]; rfl⟩

/-- Settles O47: the cells that the pushes wrote hold the bytes that the pulls read. -/
theorem returnsUndoTheirCalls : Obligations.ReturnsUndoTheirCalls := by
  intro w s t hw hsp hcells
  refine ⟨fun h => ?_, fun h => ?_⟩
  · obtain ⟨hu, hroom, -, -⟩ := jumpToSubroutinePushesPc.2 w s hw
    obtain ⟨u1, u2, h1, h2, hexec⟩ := hroom hsp
    obtain rfl := Host.Outcome.next.inj (hexec.symm.trans h)
    exact ⟨rfl, _, exec_rts_after_pushes hu hcells hsp h1 h2 rfl rfl, rfl, rfl, h2.flags.trans (h1.flags.trans hu.flags)⟩
  · obtain ⟨u1, u2, h1, h2, hexec⟩ := (breakTakesTheTrap.2 s hw).1 hsp
    have hrts := exec_rts_after_pushes (t := t) (AfterReads.refl s) hcells hsp h1 h2
    obtain rfl := Host.Outcome.next.inj (hexec.symm.trans h)
    have hrti := (exec_rti_eq_mapFlags _).trans (congrArg (mapFlags _) (hrts rfl rfl))
    exact ⟨rfl, rfl, _, hrti, rfl, rfl, rfl⟩

end Sys2Proof.Proofs
end

section
/-! PROOFS. Flag instructions, NOP and HLT (45_flag_misc.md): each writes its own fields only, and a halted core takes no
step. -/

namespace Sys2Proof.Machine

open Sys2Proof

/-! ### The halted core (R129, 70_reset_and_hazards.md R151) -/

/-- `halted` is looked at before the fault record and before the fetch, so it alone decides. -/
theorem step_of_halted {s : State} (h : s.halted = true) : step s = .fault .halted := by
  simp only [step, stopped, h, if_true]

end Sys2Proof.Machine

namespace Sys2Proof.Proofs

open Sys2Proof Sys2Proof.Machine

/-- Settles O48: the execute part of each is one update of the flags, and its form, implied, reads nothing. -/
theorem flagInstructionsWriteOneFlag : Obligations.FlagInstructionsWriteOneFlag := by
  refine ⟨encodedAs_of_build (by decide) (by decide) (by decide), encodedAs_of_build (by decide) (by decide) (by decide),
    encodedAs_of_build (by decide) (by decide) (by decide), encodedAs_of_build (by decide) (by decide) (by decide),
    encodedAs_of_build (by decide) (by decide) (by decide), encodedAs_of_build (by decide) (by decide) (by decide),
    encodedAs_of_build (by decide) (by decide) (by decide), fun s => ?_⟩
  exact ⟨exec_eq_execute .clc s, exec_eq_execute .sec s, exec_eq_execute .cli s, exec_eq_execute .sei s,
    exec_eq_execute .clv s, exec_eq_execute .cld s, exec_eq_execute .sed s⟩

/-- Settles O49: the execute part is the state itself. -/
theorem nopChangesNothing : Obligations.NopChangesNothing :=
  ⟨encodedAs_of_build (by decide) (by decide) (by decide), exec_eq_execute .nop⟩

/-- Settles O50: the execute part sets `halted` and BUS, and a step from a halted state answers so. -/
theorem haltStopsTheCore : Obligations.HaltStopsTheCore := by
  refine ⟨encodedAs_of_build (by decide) (by decide) (by decide), fun s => ?_⟩
  have hexec : exec .hlt s = .next s.halt := exec_eq_execute .hlt s
  refine ⟨hexec, fun t ht => ?_⟩
  obtain rfl := Host.Outcome.next.inj (hexec.symm.trans ht)
  exact step_of_halted rfl

end Sys2Proof.Proofs
end

section
/-! PROOFS. Faults (60_exceptions.md): that every instruction completes, which of them raise a fault and where SP then stands,
what a fetched illegal byte leaves behind, and that I masks nothing. -/

namespace Sys2Proof.Machine

open Sys2Proof

/-! ### Illegal opcodes (R131) -/

/-- No operand byte of an illegal opcode is fetched (30_encoding.md R59). -/
theorem fetchInstr_of_illegal {s : State} (h : isIllegalByte (fetchOpcode s).1 = true) :
    fetchInstr s = (.illegal (fetchOpcode s).1, (fetchOpcode s).2) := by
  have hbuild := build_illegal 0 0 h
  have hcount : operandCount (fetchOpcode s).1 = 0 := by
    rw [operandCount, hbuild]
    rfl
  simp only [fetchInstr, hcount, hbuild]

theorem exec_illegal (op : Byte) (s : State) :
    exec (.illegal op) s = .next { s with fault := recorded .unimplementedOpcode s 1 } :=
  exec_eq_execute (.illegal op) s

/-! ### Stack faults (R130, R134) -/

/-- An effect that changes the fault record is a raise by a mnemonic of its kind; a stack fault needs SP at the bound that the
mnemonic's one or two bytes meet (10_state.md R23 to R25). -/
theorem Effect.fault_bounds {d : Mode} {a : Word} {s t : State} {m : Mnemonic} (h : Effect d a s m t)
    (hne : t.fault ≠ s.fault) :
    ∃ k, t.fault = some ⟨k, s.ir, a⟩ ∧ (k = .unimplementedOpcode → m = .illegal) ∧
      (k = .stackOverflow → m ∈ [.pha, .php] ∧ s.sp.toNat = 0 ∨ m ∈ [.jsr, .brk] ∧ s.sp.toNat ≤ 1) ∧
      (k = .stackUnderflow → m ∈ [.pla, .plp] ∧ s.sp.toNat = 0xFF ∨ m ∈ [.rts, .rti] ∧ 0xFE ≤ s.sp.toNat) := by
  cases h with
  | overflow _ _ _ _ hm => exact ⟨.stackOverflow, rfl, nofun, fun _ => hm, nofun⟩
  | underflow _ _ _ hm =>
    refine ⟨.stackUnderflow, rfl, nofun, nofun, fun _ => hm.imp_right fun ⟨hrts, hsp⟩ => ⟨?_, hsp⟩⟩
    exact hrts ▸ List.mem_cons_self
  | trapRetUnderflow _ _ _ hsp => exact ⟨.stackUnderflow, rfl, nofun, nofun, fun _ => .inr ⟨by decide, hsp⟩⟩
  | illegal => exact ⟨.unimplementedOpcode, rfl, fun _ => rfl, nofun, nofun⟩
  | _ => exact absurd (by simp) hne

end Sys2Proof.Machine

namespace Sys2Proof.Proofs

open Sys2Proof Sys2Proof.Machine

/-- Settles O11: every mnemonic's execute part answers one of its effects. -/
theorem everyInstructionCompletes : Obligations.EveryInstructionCompletes := by
  intro i s
  obtain ⟨t, ht, -⟩ := execute_effect i.mnemonic i.form (opcodeAddr i s) s
  exact ⟨t, (exec_eq_execute i s).trans ht⟩

/-- Settles O12: the fetch stops after the opcode, and PC less the one byte of the instruction is where it was read. -/
theorem illegalOpcodeRecordsItsFault : Obligations.IllegalOpcodeRecordsItsFault := by
  refine ⟨fun s op hh hf hop hill => ?_, exec_illegal⟩
  subst hop
  have hfetch : (fetchOpcode s).2 = { (memRead s.pc s.drawBus).2 with
      ir := (memRead s.pc s.drawBus).1, pc := s.pc + 1#16 } := by
    simp only [fetchOpcode, fetch, State.setIr, State.setPc, memRead_pc, drawBus_pc]
  have haddr : s.pc + 1#16 - BitVec.ofNat 16 1 = s.pc := BitVec.add_sub_cancel ..
  rw [step_of_running hh hf, fetchInstr_of_illegal hill, exec_illegal, hfetch]
  simp only [recorded, haddr]

/-- Settles O54: the record's address is the opcode's, from which every effect of the instruction is taken. -/
theorem onlyListedInstructionsRaiseAFault : Obligations.OnlyListedInstructionsRaiseAFault :=
  fun _ _ _ h hne => (effect_of_exec h).fault_bounds hne

/-- Settles O57: I alone is overridden, and the excluded mnemonics are those that pack or write it. -/
theorem interruptFlagIsInert : Obligations.InterruptFlagIsInert := by
  intro i s d hm
  simp only [List.mem_cons, List.not_mem_nil, or_false, not_or] at hm
  obtain ⟨hphp, hplp, hcli, hsei, hbrk, hrti⟩ := hm
  exact exec_overrideDI none (some d) s (by simp [hphp, hplp]) (fun _ => rfl) (by simp [hcli, hsei, hbrk, hrti])

end Sys2Proof.Proofs
end

section
/-! PROOFS. The step (70_reset_and_hazards.md): that it stops only on a halted or faulted core, and that it runs the instruction
whose bytes stand at PC. -/

namespace Sys2Proof.Machine

open Sys2Proof

/-! ### A stopped core (R151, 93_implementation_defined.md U24) -/

theorem step_of_faulted {s : State} {r : FaultRecord} (hh : s.halted = false) (hf : s.fault = some r) :
    step s = .fault (.faulted r) := by
  simp [step, stopped, hh, hf]

/-! ### Fetching bytes that no device serves (R148, R149) -/

/-- `s` with opcode `op` fetched and PC past `n` bytes of its instruction. -/
def State.pastBytes (s : State) (op : Byte) (n : Nat) : State :=
  (s.drawBus.setIr op).setPc (s.pc + BitVec.ofNat 16 n)

section
variable {s : State} {op : Byte}

theorem fetchOpcode_of_peek (h : s.mem.peek s.pc = some op) : fetchOpcode s = (op, s.pastBytes op 1) := by
  have hfetch : fetch s.drawBus = (op, s.drawBus.setPc (s.pc + 1#16)) := fetch_of_peek h
  rw [fetchOpcode, hfetch]
  rfl

theorem fetch_pastBytes {b : Byte} {n : Nat} (h : s.mem.peek (s.pc + BitVec.ofNat 16 n) = some b) :
    fetch (s.pastBytes op n) = (b, s.pastBytes op (n + 1)) := by
  have hfetch : fetch (s.pastBytes op n) = (b, (s.pastBytes op n).setPc (s.pc + BitVec.ofNat 16 n + 1#16)) :=
    fetch_of_peek h
  rw [hfetch, BitVec.add_assoc, ← BitVec.ofNat_add]
  rfl

/-- The opcode says how many of the bytes after it are fetched, and each fetch reads the next of them. -/
theorem fetchInstr_of_bytes {l : List Byte} (hl : l.length = operandCount op)
    (h : ∀ k, k < 1 + l.length → s.mem.peek (s.pc + BitVec.ofNat 16 k) = (op :: l)[k]?) :
    fetchInstr s = (build op (l.getD 0 0) (l.getD 1 0), s.pastBytes op (1 + l.length)) := by
  have hop : fetchOpcode s = (op, s.pastBytes op 1) :=
    fetchOpcode_of_peek (by simpa using h 0 (by omega))
  match l, hl, operandCount_le_two op with
  | [], hl, _ => simp [fetchInstr, hop, ← hl]
  | [b1], hl, _ =>
    have h1 : fetch (s.pastBytes op 1) = (b1, s.pastBytes op 2) := fetch_pastBytes (h 1 (by simp))
    simp [fetchInstr, hop, ← hl, h1]
  | [b1, b2], hl, _ =>
    have h1 : fetch (s.pastBytes op 1) = (b1, s.pastBytes op 2) := fetch_pastBytes (h 1 (by simp))
    have h2 : fetch (s.pastBytes op 2) = (b2, s.pastBytes op 3) := fetch_pastBytes (h 2 (by simp))
    simp [fetchInstr, hop, ← hl, h1, h2]
  | _ :: _ :: _ :: _, hl, hle => simp at hl; omega

end

theorem fetchInstr_of_encode {i : Instr} {s : State} (hw : i.wellFormed = true)
    (h : ∀ k, k < i.length → s.mem.peek (s.pc + BitVec.ofNat 16 k) = (encode i)[k]?) :
    fetchInstr s = (i, s.pastBytes i.opcode i.length) := by
  have hlen : i.length = 1 + i.form.bytes.length := by rw [form_bytes_length, Instr.length, Instr.mode]
  rw [hlen] at h ⊢
  rw [fetchInstr_of_bytes (operandCount_opcode hw) h, build_bytes hw]

end Sys2Proof.Machine

namespace Sys2Proof.Proofs

open Sys2Proof Sys2Proof.Machine

/-- Settles O10: `halted` is looked at first, then the fault record; on a running core the step is the execution of the
instruction fetched, which completes. -/
theorem stepStopsExactlyWhenNotRunning : Obligations.StepStopsExactlyWhenNotRunning := by
  refine fun s => ⟨step_of_halted, fun _ => step_of_faulted, fun hh hf => ?_⟩
  rw [step_of_running hh hf]
  exact everyInstructionCompletes _ _

/-- Settles O9: the fetches read the instruction's encoding, from which the decoder builds it again. -/
theorem stepRunsTheDecodedInstruction : Obligations.StepRunsTheDecodedInstruction := by
  intro s i hh hf hw hbytes
  rw [step_of_running hh hf, fetchInstr_of_encode hw hbytes]
  rfl

end Sys2Proof.Proofs
end

section
/-! PROOFS. The reset of a launch (70_reset_and_hazards.md R146; 95_test_vectors.md E6, E9): the RESET vector is ROM_BASE
whatever the parameters and RAM_INIT, and no device is mapped that the reset's reads could reach. -/

namespace Sys2Proof.Machine

open Sys2Proof

section
variable {p : Params} {ramInit : List Byte} {s : State} (h : s.mem = Memory.launched p ramInit)
include h

theorem read16_resetVector_of_launched : read16 Config.resetVector s = (Config.romBase, s) := by
  have hlo := launched_peek_vector p ramInit (a := Config.resetVector) (by decide)
  have hhi := launched_peek_vector p ramInit (a := Config.resetVector + 1#16) (by decide)
  exact read16_of_peek (h ▸ hlo) (h ▸ hhi)

/-- Nothing is mapped at ROM_BASE before the host loads an image there. -/
theorem memRead_romBase_of_launched : memRead Config.romBase s = (0x00#8, s) :=
  memRead_of_unmapped (h ▸ launched_region_unmapped p ramInit (by decide))

theorem resetSequence_of_launched : resetSequence s = s.clearedAt Config.romBase s := by
  rw [resetSequence_eq, read16_resetVector_of_launched h, memRead_romBase_of_launched h]

end

/-- With RAM_INIT left out, a launch changes nothing in the memory as constructed. -/
theorem launched_nil (p : Params) : Memory.launched p [] = Memory.constructed p := rfl

end Sys2Proof.Machine

namespace Sys2Proof.Proofs

open Sys2Proof Sys2Proof.Machine

/-- Settles O14: the reset of a launch is `clearedAt` ROM_BASE, which on the default memory gives every field of
`State.reset`. -/
theorem defaultLaunchResetsToTheResetState : Obligations.DefaultLaunchResetsToTheResetState := by
  refine ⟨?_, rfl⟩
  rw [resetSequence_of_launched (p := Config.defaults) (ramInit := []) rfl, launched_nil]
  rfl

end Sys2Proof.Proofs
end
